-- ==== Sys2Proof/Word.lean ====
section
/-! DEFINITION. The bit vectors of the HAM74 block, each under the name the spec gives the value (00_scope.md R6, R8). -/

namespace Sys2Proof

/-- A 7-bit word in the codeword layout of R10: wire bit 6 is string position 0 (`N = 7`, R6). -/
abbrev Word := BitVec 7

/-- A 4-bit message, which is also a codebook index; bit 3 is m1 (`K = 4`, R6 and R9). -/
abbrev Index := BitVec 4

/-- A Hamming distance 0..7 (R12). -/
abbrev Distance := BitVec 3

/-- A 32-bit command word (`CMDW = 32`, R6 and R60). -/
abbrev Cmd := BitVec 32

/-- The 32-bit result register and the 32-bit counters (`RESW = W = 32`, R6). -/
abbrev Word32 := BitVec 32

end Sys2Proof
end

