-- ==== Sys2Proof/Syntax.lean ====
section
/-! DEFINITION. The commands of the HAM74 command set: one constructor for each row of spec/opcode_table.json (30_encoding.md R63, R64). -/

namespace Sys2Proof

/-- One command. An operand is the whole 7-bit field of the word (R61, R62), because a word whose index or
selector is out of range still spells its command (R64: it raises INVALID_INPUT, not ILLEGAL). -/
inductive Instr where
  /-- BUILD: initialise the codebook (R100). -/
  | build
  /-- ENC: codeword of the message `a` (R102). -/
  | enc (a : Word)
  /-- LOOKUP: codebook entry `a` (R104). -/
  | lookup (a : Word)
  /-- DIST: Hamming distance of the words `a` and `b` (R120). -/
  | dist (a b : Word)
  /-- DEC: nearest codeword of the received word `b` (R131). -/
  | dec (b : Word)
  /-- CLS: classify the trial with transmitted index `a` and received word `b` (R152). -/
  | cls (a b : Word)
  /-- CLSACC: classify the trial and count it (R160). -/
  | clsacc (a b : Word)
  /-- HCLR: clear the twelve counters (R165). -/
  | hclr
  /-- RDCLS: read class counter `a` (R167). -/
  | rdcls (a : Word)
  /-- RDDH: read distance histogram counter `a` (R169). -/
  | rddh (a : Word)
  /-- RDSTAT: read the status view (R180). -/
  | rdstat
  deriving DecidableEq, Repr

end Sys2Proof
end

