-- ==== Sys2Proof/Decode.lean ====
section
/-! DEFINITION. The command word of 30_encoding.md: its fields (R61), the decoder by match and mask (R64, R65) and the encoder (R61). -/

namespace Sys2Proof

/-- `OP`, bits 31:28 (R61). -/
def fieldOp (w : Cmd) : BitVec 4 := w.extractLsb' 28 4

/-- `RSV1`, bits 27:15, reserved (R61). -/
def fieldRsv1 (w : Cmd) : BitVec 13 := w.extractLsb' 15 13

/-- `A`, bits 14:8, the first operand (R61). -/
def fieldA (w : Cmd) : Word := w.extractLsb' 8 7

/-- `RSV0`, bit 7, reserved (R61). -/
def fieldRsv0 (w : Cmd) : BitVec 1 := w.extractLsb' 7 1

/-- `B`, bits 6:0, the second operand (R61). -/
def fieldB (w : Cmd) : Word := w.extractLsb' 0 7

/-- One row of the opcode table of R64: its match, its mask, and the command its words spell with the fields A and B. -/
structure Row where
  pattern : Cmd
  mask : Cmd
  command : Word → Word → Instr

/-- A word selects a row exactly when `(cmd & mask) == match` (R64). -/
def Row.selects (r : Row) (w : Cmd) : Bool := w &&& r.mask == r.pattern

/-- The opcode table of R64 (the same rows as spec/opcode_table.json). -/
def rows : List Row :=
  [ ⟨0x10000000#32, 0xFFFFFFFF#32, fun _ _ => .build⟩,
    ⟨0x20000000#32, 0xFFFF80FF#32, fun a _ => .enc a⟩,
    ⟨0x30000000#32, 0xFFFF80FF#32, fun a _ => .lookup a⟩,
    ⟨0x40000000#32, 0xFFFF8080#32, fun a b => .dist a b⟩,
    ⟨0x50000000#32, 0xFFFFFF80#32, fun _ b => .dec b⟩,
    ⟨0x60000000#32, 0xFFFF8080#32, fun a b => .cls a b⟩,
    ⟨0x70000000#32, 0xFFFF8080#32, fun a b => .clsacc a b⟩,
    ⟨0x80000000#32, 0xFFFFFFFF#32, fun _ _ => .hclr⟩,
    ⟨0x90000000#32, 0xFFFF80FF#32, fun a _ => .rdcls a⟩,
    ⟨0xA0000000#32, 0xFFFF80FF#32, fun a _ => .rddh a⟩,
    ⟨0xB0000000#32, 0xFFFFFFFF#32, fun _ _ => .rdstat⟩ ]

/-- Why a word spells no command: the three causes of ILLEGAL (R67, R201). -/
inductive Illegal where
  /-- `OP` is one of 0x0, 0xC, 0xD, 0xE, 0xF. -/
  | reservedOpcode
  /-- `RSV1` or `RSV0` is nonzero. -/
  | reservedBits
  /-- A field the command does not use is nonzero. -/
  | unusedOperand
  deriving DecidableEq, Repr

/-- What a word spells. -/
inductive Decoded where
  | command (i : Instr)
  | illegal (why : Illegal)
  deriving DecidableEq, Repr

/-- The name of the cause, for a word that selects no row (R67). All three raise the one code ILLEGAL (R201). -/
def illegalCause (w : Cmd) : Illegal :=
  if fieldOp w = 0x0#4 ∨ 0xC#4 ≤ fieldOp w then .reservedOpcode
  else if fieldRsv1 w ≠ 0 ∨ fieldRsv0 w ≠ 0 then .reservedBits
  else .unusedOperand

/-- The decoder (R64, R65): total on every word, and a word that selects no row is refused by name. -/
def decode (w : Cmd) : Decoded :=
  match rows.find? (fun r => r.selects w) with
  | some r => .command (r.command (fieldA w) (fieldB w))
  | none => .illegal (illegalCause w)

/-- `cmd = (OP << 28) | (A << 8) | B` (R61). -/
def commandWord (op : BitVec 4) (a b : Word) : Cmd :=
  op.setWidth 32 <<< 28 ||| a.setWidth 32 <<< 8 ||| b.setWidth 32

/-- The opcode of a command (R63). -/
def Instr.opcode : Instr → BitVec 4
  | .build => 0x1
  | .enc _ => 0x2
  | .lookup _ => 0x3
  | .dist _ _ => 0x4
  | .dec _ => 0x5
  | .cls _ _ => 0x6
  | .clsacc _ _ => 0x7
  | .hclr => 0x8
  | .rdcls _ => 0x9
  | .rddh _ => 0xA
  | .rdstat => 0xB

/-- The field A of a command; a field the command does not use is 0 (R64). -/
def Instr.operandA : Instr → Word
  | .build => 0
  | .enc a => a
  | .lookup a => a
  | .dist a _ => a
  | .dec _ => 0
  | .cls a _ => a
  | .clsacc a _ => a
  | .hclr => 0
  | .rdcls a => a
  | .rddh a => a
  | .rdstat => 0

/-- The field B of a command; a field the command does not use is 0 (R64). -/
def Instr.operandB : Instr → Word
  | .build => 0
  | .enc _ => 0
  | .lookup _ => 0
  | .dist _ b => b
  | .dec b => b
  | .cls _ b => b
  | .clsacc _ b => b
  | .hclr => 0
  | .rdcls _ => 0
  | .rddh _ => 0
  | .rdstat => 0

/-- The word of a command (R61, R64). -/
def encode (i : Instr) : Cmd := commandWord i.opcode i.operandA i.operandB

/-- The command word whose low `nbits` bits are those of `w`, every bit above them 0. A command is one 32-bit word,
a single parallel value without a byte order (R42, R60), so the opcode table's bit k is `cmd[k]`. -/
def tableWord (nbits w : Nat) : Cmd := BitVec.ofNat 32 (w % 2 ^ nbits)

/-- The command the decoder reads from a word numbered as spec/opcode_table.json numbers it; none where it refuses. -/
def decodeTableWord (nbits w : Nat) : Option Instr :=
  match decode (tableWord nbits w) with
  | .command i => some i
  | .illegal _ => none

end Sys2Proof
end

