-- ==== Sys2Proof/Config.lean ====
section
/-! DEFINITION. The fixed parameters of 00_scope.md R6 that bound an operand, and the one parameter the spec leaves open (92_eei_decisions.md D32). -/

namespace Sys2Proof

/-- `NCW`: the number of codewords, and of codebook indexes (R6). -/
abbrev Config.codewordCount : Nat := 16

/-- `NCLS`: the number of outcome classes (R6). -/
abbrev Config.classCount : Nat := 4

/-- `NDH`: the number of bins of the distance histogram, distances 0..7 (R6). -/
abbrev Config.distanceCount : Nat := 8

/-- `DMIN`: the minimum distance of the code (R6, R108). -/
abbrev Config.minimumDistance : Nat := 3

/-- The contents of `CB` after a reset, which the spec leaves OPEN: the parameter
`cb_reset_contents : Fin 16 → BitVec 7`, any value (D32; 93_implementation_defined.md item 1; R20, R221).
A constant without a body: no proof can see a value of it. Log entry 1. -/
opaque Config.cbResetContents : Fin 16 → Word

end Sys2Proof
end

