-- ==== Sys2Proof/Machine/State.lean ====
section
/-! DEFINITION. The architectural state of the block (10_state.md R20), its ports (30_encoding.md R71) and the state after reset (70_reset_and_hazards.md R220, R221). -/

namespace Sys2Proof.Machine

/-- The 2-bit status codes of R200, by name; `Status.code` (Flags.lean) gives the bits. -/
inductive Status where
  /-- 0: the command completed. -/
  | ok
  /-- 1: an operand is outside its legal range. -/
  | invalidInput
  /-- 2: the block's state does not allow the command. -/
  | precondition
  /-- 3: the word spells no command. -/
  | illegal
  deriving DecidableEq, Repr

/-- The errors a command can raise: the status codes other than OK (R200). -/
inductive ErrorCode where
  | invalidInput
  | precondition
  | illegal
  deriving DecidableEq, Repr

/-- The input ports as one rising edge of `clk` samples them (R71). -/
structure PortInputs where
  /-- `rst`: synchronous reset, active high. -/
  rst : Bool
  /-- `cmd_valid`: a command is offered at this edge. -/
  cmdValid : Bool
  /-- `cmd`: the command word. -/
  cmd : Cmd
  deriving DecidableEq, Repr

/-- The state of the block. The first eight fields are the whole architectural state of R20; `rspValid` is the
response port of R71 that is not one of them; `inputs` is the model's own field. -/
structure State where
  /-- `CB[0..15]`: the codebook entries (R23). -/
  cb : Vector Word 16
  /-- `CB_VALID`: the codebook has been built (R24). -/
  cbValid : Bool
  /-- `CNT[0..3]`: the outcome class counters (R26). -/
  cnt : Vector Word32 4
  /-- `DH[0..7]`: the distance histogram counters (R27). -/
  dh : Vector Word32 8
  /-- `RES`: the result of the last command (R29). -/
  res : Word32
  /-- `STAT`: the status of the last command (R30). -/
  stat : Status
  /-- `FAULT`: the sticky error flag (R31). -/
  fault : Bool
  /-- `FCODE`: the code of the first error since reset (R32). -/
  fcode : Status
  /-- The port `rsp_valid` (R71, R72). -/
  rspValid : Bool
  /-- The model's own: what the host drives at the coming edges of `clk`, the next one first. Log entry 2. -/
  inputs : List PortInputs
  deriving DecidableEq, Repr

/-- Why a step can stop with a fault: NO reason. Every error the spec describes is the outcome of one command, a next
state with `STAT`, `FAULT` and `FCODE` written (R203, R206), so the type has no constructor and nothing raises it. -/
inductive Fault where
  deriving DecidableEq, Repr

/-- Why a step can be refused. -/
inductive Refusal where
  /-- Raised by exec's arm of a command that has no meaning yet; safe. No arm raises it: every command has its meaning. -/
  | notModelled (mnemonic : String)
  deriving DecidableEq, Repr

/-- What every command answers. -/
abbrev Answer := Host.Outcome State Fault Refusal

/-- The state right after reset (R20, R220, R221). `CB` is unspecified there: it holds the open parameter of D32, log
entry 1. `inputs` is empty: nothing is offered yet, log entry 2. -/
def State.reset : State where
  cb := Vector.ofFn Config.cbResetContents
  cbValid := false
  cnt := Vector.replicate 4 0
  dh := Vector.replicate 8 0
  res := 0
  stat := .ok
  fault := false
  fcode := .ok
  rspValid := false
  inputs := []

end Sys2Proof.Machine
end

