-- ==== Sys2Proof/Machine/Flags.lean ====
section
/-! DEFINITION. The codes and layouts of the result and status registers: status codes (60_exceptions.md R200), class codes (43_classification.md R150), result layouts (30_encoding.md R66) and the status view (10_state.md R33). -/

namespace Sys2Proof.Machine

/-- The 2-bit status code (R200). -/
def Status.code : Status → BitVec 2
  | .ok => 0
  | .invalidInput => 1
  | .precondition => 2
  | .illegal => 3

/-- The output port `rsp_stat` always shows `STAT` (R71, R72). -/
def State.rspStat (s : State) : BitVec 2 := s.stat.code

/-- The outcome classes of a trial (R150). -/
inductive TrialClass where
  | noError
  | detectedCorrected
  | undetected
  | detectedUncorrected
  deriving DecidableEq, Repr

/-- The 2-bit class code (R150). -/
def TrialClass.code : TrialClass → BitVec 2
  | .noError => 0
  | .detectedCorrected => 1
  | .undetected => 2
  | .detectedUncorrected => 3

/-- `RES[6:0] = c` (R66: ENC, LOOKUP). -/
def wordResult (c : Word) : Word32 := c.setWidth 32

/-- `RES[2:0] = d` (R66: DIST). -/
def distanceResult (d : Distance) : Word32 := d.setWidth 32

/-- `RES[6:0] = c`, `RES[11:8] = ci`, `RES[18:16] = dm` (R66, R131: DEC). -/
def decodeResult (c : Word) (ci : Index) (dm : Distance) : Word32 :=
  (dm ++ 0b0000#4 ++ ci ++ 0b0#1 ++ c).setWidth 32

/-- `RES[1:0] = k`, `RES[10:8] = d`, `RES[22:16] = c`, `RES[27:24] = ci` (R66, R152: CLS and CLSACC). -/
def classifyResult (k : BitVec 2) (d : Distance) (c : Word) (ci : Index) : Word32 :=
  (ci ++ 0b0#1 ++ c ++ 0b00000#5 ++ d ++ 0b000000#6 ++ k).setWidth 32

/-- The status view: bit 0 `CB_VALID`, bit 1 `FAULT`, bits 5:4 `FCODE`, every other bit 0 (R33, R180). -/
def State.statusView (s : State) : Word32 :=
  (s.fcode.code ++ 0b00#2 ++ BitVec.ofBool s.fault ++ BitVec.ofBool s.cbValid).setWidth 32

end Sys2Proof.Machine
end

