-- ==== Sys2Proof/Machine/Code.lean ====
section
/-! DEFINITION. The functions of the (7,4) Hamming code (00_scope.md R12): parity, codeword, distance, and the syndrome form of 42_decoder.md R135. -/

namespace Sys2Proof.Machine

/-- `popcount7(v)`: the number of 1 bits, counted exactly and at most 7 (R11, R122). -/
def popcount7 (v : Word) : Distance := BitVec.ofNat 3 ((List.range 7).countP v.getLsbD)

/-- `dist(a, b) = popcount7(a xor b)` (R12). -/
def wordDist (a b : Word) : Distance := popcount7 (a ^^^ b)

/-- `parity(i) = p1 ++ p2 ++ p3` with m1 = i[3], m2 = i[2], m3 = i[1], m4 = i[0] (R9, R12). -/
def parity (i : Index) : BitVec 3 :=
  let m1 := i.getLsbD 3
  let m2 := i.getLsbD 2
  let m3 := i.getLsbD 1
  let m4 := i.getLsbD 0
  BitVec.ofBool (m2 ^^ m3 ^^ m4) ++ BitVec.ofBool (m1 ^^ m3 ^^ m4) ++ BitVec.ofBool (m1 ^^ m2 ^^ m4)

/-- `codeword(i) = i[3:0] ++ parity(i)` (R12). -/
def codeword (i : Index) : Word := i ++ parity i

/-- The codebook BUILD writes: entry `i` is `codeword(i)` (R23, R100, R101). -/
def codebook : Vector Word 16 := Vector.ofFn fun i => codeword (BitVec.ofNat 4 i)

/-- The three parity checks `s1 ++ s2 ++ s3` of R135, with c1 = r[6] down to c7 = r[0]. -/
def syndrome (r : Word) : BitVec 3 :=
  let c1 := r.getLsbD 6
  let c2 := r.getLsbD 5
  let c3 := r.getLsbD 4
  let c4 := r.getLsbD 3
  let c5 := r.getLsbD 2
  let c6 := r.getLsbD 1
  let c7 := r.getLsbD 0
  BitVec.ofBool (c5 ^^ c2 ^^ c3 ^^ c4) ++ BitVec.ofBool (c6 ^^ c1 ^^ c3 ^^ c4) ++ BitVec.ofBool (c7 ^^ c1 ^^ c2 ^^ c4)

/-- The position the table of R135 flips for a syndrome, as a mask. -/
def syndromeFlip (s : BitVec 3) : Word :=
  if s = 0b001#3 then 0x01
  else if s = 0b010#3 then 0x02
  else if s = 0b011#3 then 0x40
  else if s = 0b100#3 then 0x04
  else if s = 0b101#3 then 0x20
  else if s = 0b110#3 then 0x10
  else if s = 0b111#3 then 0x08
  else 0x00

/-- The codeword the syndrome form of R135 finds. -/
def syndromeWord (r : Word) : Word := r ^^^ syndromeFlip (syndrome r)

end Sys2Proof.Machine
end

