-- ==== Sys2Proof/Machine/Ops.lean ====
section
/-! DEFINITION. The named operations over the block's state: the three indexed spaces (20_memory.md R40), completing a command, raising an error (60_exceptions.md R203), the order of the checks (30_encoding.md R65), reset, and the input ports. -/

namespace Sys2Proof.Machine

/-- `CB[i]` (R40). -/
def cbAt (cb : Vector Word 16) (i : Index) : Word := cb[i.toNat]'i.isLt

/-- `CNT[k]` (R40). -/
def State.cntAt (s : State) (k : BitVec 2) : Word32 := s.cnt[k.toNat]'k.isLt

/-- `DH[d]` (R40). -/
def State.dhAt (s : State) (d : Distance) : Word32 := s.dh[d.toNat]'d.isLt

/-- `for i in 0..15: CB[i] <- codeword(i)` and `CB_VALID <- 1`, together (R100). -/
def State.buildCodebook (s : State) : State := { s with cb := codebook, cbValid := true }

/-- `CNT[k] <- (CNT[k] + 1) mod 2^32` (R160, R171). -/
def State.countClass (s : State) (k : BitVec 2) : State :=
  { s with cnt := s.cnt.set k.toNat (s.cntAt k + 1) k.isLt }

/-- `DH[d] <- (DH[d] + 1) mod 2^32` (R160, R171). -/
def State.countDistance (s : State) (d : Distance) : State :=
  { s with dh := s.dh.set d.toNat (s.dhAt d + 1) d.isLt }

/-- All twelve counters to 0 (R165). -/
def State.clearCounters (s : State) : State :=
  { s with cnt := Vector.replicate 4 0, dh := Vector.replicate 8 0 }

/-- A command completes: `RES` holds its result and `STAT <- OK` (R29, R30, R65). -/
def State.complete (s : State) (result : Word32) : State := { s with res := result, stat := .ok }

/-- The status code of an error (R200). -/
def ErrorCode.status : ErrorCode → Status
  | .invalidInput => .invalidInput
  | .precondition => .precondition
  | .illegal => .illegal

/-- `raise Error(code)`: exactly the four writes of R203. There is no return from it: the next command is decoded and
performed as usual (R206). -/
def State.raiseError (s : State) (code : ErrorCode) : State :=
  { s with
    res := 0
    stat := code.status
    fcode := if s.fault then s.fcode else code.status
    fault := true }

/-- The checks of R65 in their order, for a word that spells a command: the operand's range, then the state
precondition, then the command's own effect. -/
def checked (inRange precondition : Bool) (s t : State) : State :=
  if inRange then
    if precondition then t else s.raiseError .precondition
  else s.raiseError .invalidInput

/-- An edge with `rst = 1`: every piece of state takes its reset value and `rsp_valid` becomes 0 (R220). What the host
drives at later edges is not the block's to change. -/
def State.resetEdge (s : State) : State := { State.reset with inputs := s.inputs }

/-- The ports at an edge where the host offers nothing: `rst = 0` and `cmd_valid = 0` (R72). -/
def PortInputs.idle : PortInputs := ⟨false, false, 0⟩

/-- The ports at an edge where the host offers the command word `w` (R72). -/
def PortInputs.offer (w : Cmd) : PortInputs := ⟨false, true, w⟩

/-- The ports the next edge samples; where nothing is left in `inputs`, an idle edge. Log entry 2. -/
def State.nextInputs (s : State) : PortInputs := s.inputs.headD .idle

/-- The state once the next edge has sampled its ports. -/
def State.afterSampling (s : State) : State := { s with inputs := s.inputs.tail }

/-- The output port `rsp_res` always shows `RES` (R71, R72). -/
def State.rspRes (s : State) : Word32 := s.res

end Sys2Proof.Machine
end

