-- ==== Sys2Proof/Machine/Decoder.lean ====
section
/-! DEFINITION. The decoder: the search `nearest` and the command DEC (42_decoder.md R131), and `is_codeword` (R130). -/

namespace Sys2Proof.Machine

/-- What the search returns: the codeword `c`, its index `ci` and the distance `dm` (R131). -/
structure Nearest where
  word : Word
  index : Index
  distance : Distance
  deriving DecidableEq, Repr

/-- The indexes 1..15 in ascending order, the search's loop (R131). -/
def searchOrder : List Index := [1, 2, 3, 4, 5, 6, 7, 8, 9, 10, 11, 12, 13, 14, 15]

/-- One turn of the loop on `(ci, dm)`: the strict comparison keeps the first minimum (R131, R132). -/
def searchStep (cb : Vector Word 16) (r : Word) (best : Index × Distance) (i : Index) : Index × Distance :=
  if wordDist (cbAt cb i) r < best.2 then (i, wordDist (cbAt cb i) r) else best

/-- `nearest(r)`: the index-ascending minimum-distance search over the codebook (R131). -/
def nearest (cb : Vector Word 16) (r : Word) : Nearest :=
  let best := searchOrder.foldl (searchStep cb r) (0, wordDist (cbAt cb 0) r)
  ⟨cbAt cb best.1, best.1, best.2⟩

/-- `is_codeword(r)`: `CB[i] = r` for some `i` in 0..15 (R130). -/
def isCodeword (cb : Vector Word 16) (r : Word) : Bool := cb.toList.contains r

/-- DEC (R131): PRECONDITION if the codebook is not built. -/
def execDec (b : Word) (s : State) : Answer :=
  let n := nearest s.cb b
  .next (checked true s.cbValid s (s.complete (decodeResult n.word n.index n.distance)))

end Sys2Proof.Machine
end

