-- ==== Sys2Proof/Machine/Operands.lean ====
section
/-! DEFINITION. The operand forms of 30_encoding.md R62: message or index, class selector, distance selector. A word operand is the field itself. -/

namespace Sys2Proof.Machine

/-- A message or codebook index is in range: 0..15 (R62). A larger value is never truncated or wrapped (R41). -/
def indexInRange (a : Word) : Bool := decide (a.toNat < Config.codewordCount)

/-- `A[3:0]`, the index an in-range operand names (R102, R104, R152). -/
def indexOf (a : Word) : Index := a.extractLsb' 0 4

/-- A class selector is in range: 0..3 (R62). -/
def classInRange (a : Word) : Bool := decide (a.toNat < Config.classCount)

/-- `A[1:0]`, the class counter an in-range operand selects (R167). -/
def classOf (a : Word) : BitVec 2 := a.extractLsb' 0 2

/-- A distance selector is in range: 0..7 (R62). -/
def distanceInRange (a : Word) : Bool := decide (a.toNat < Config.distanceCount)

/-- `A[2:0]`, the histogram counter an in-range operand selects (R169). -/
def distanceOf (a : Word) : Distance := a.extractLsb' 0 3

end Sys2Proof.Machine
end

