-- ==== Sys2Proof/Machine/Classification.lean ====
section
/-! DEFINITION. The trial classifier and the commands CLS and CLSACC (43_classification.md R151, R152, R160). -/

namespace Sys2Proof.Machine

/-- What `classify` returns: class, distance, decoded codeword and its index (R151). -/
structure Trial where
  cls : TrialClass
  distance : Distance
  word : Word
  index : Index
  deriving DecidableEq, Repr

/-- `classify(t, r)`, with the tests in the order of R151. -/
def classify (cb : Vector Word 16) (t r : Word) : Trial :=
  let n := nearest cb r
  let k :=
    if r = t then .noError
    else if wordDist t r = 1 then .detectedCorrected
    else if isCodeword cb r then .undetected
    else .detectedUncorrected
  ⟨k, wordDist t r, n.word, n.index⟩

/-- The trial a CLS or CLSACC word asks for: the transmitted word is `CB[A]` (R152, R160). -/
def State.trial (s : State) (a b : Word) : Trial := classify s.cb (cbAt s.cb (indexOf a)) b

/-- The result CLS and CLSACC return (R66, R152, R160). -/
def Trial.result (t : Trial) : Word32 := classifyResult t.cls.code t.distance t.word t.index

/-- CLS (R152): classifies without counting. -/
def execCls (a b : Word) (s : State) : Answer :=
  .next (checked (indexInRange a) s.cbValid s (s.complete (s.trial a b).result))

/-- CLSACC (R160): classifies and adds one to `CNT[k]` and to `DH[d]`. -/
def execClsacc (a b : Word) (s : State) : Answer :=
  let t := s.trial a b
  .next (checked (indexInRange a) s.cbValid s
    (((s.countClass t.cls.code).countDistance t.distance).complete t.result))

end Sys2Proof.Machine
end

