-- ==== Sys2Proof/Machine/Codebook.lean ====
section
/-! DEFINITION. The codebook and encoder commands BUILD, ENC and LOOKUP (40_codebook_encoder.md R100, R102, R104). -/

namespace Sys2Proof.Machine

/-- BUILD (R100): PRECONDITION if the codebook is built already. -/
def execBuild (s : State) : Answer :=
  .next (checked true (!s.cbValid) s (s.buildCodebook.complete 0))

/-- ENC (R102): computed from the parity equations, never from the codebook; no precondition. -/
def execEnc (a : Word) (s : State) : Answer :=
  .next (checked (indexInRange a) true s (s.complete (wordResult (codeword (indexOf a)))))

/-- LOOKUP (R104). -/
def execLookup (a : Word) (s : State) : Answer :=
  .next (checked (indexInRange a) s.cbValid s (s.complete (wordResult (cbAt s.cb (indexOf a)))))

end Sys2Proof.Machine
end

