-- ==== Sys2Proof/Machine/Counters.lean ====
section
/-! DEFINITION. The counter and status commands HCLR, RDCLS, RDDH and RDSTAT (43_classification.md R165, R167, R169, R180). -/

namespace Sys2Proof.Machine

/-- HCLR (R165): clears the twelve counters; no precondition. -/
def execHclr (s : State) : Answer :=
  .next (checked true true s (s.clearCounters.complete 0))

/-- RDCLS (R167): no precondition. -/
def execRdcls (a : Word) (s : State) : Answer :=
  .next (checked (classInRange a) true s (s.complete (s.cntAt (classOf a))))

/-- RDDH (R169): no precondition. -/
def execRddh (a : Word) (s : State) : Answer :=
  .next (checked (distanceInRange a) true s (s.complete (s.dhAt (distanceOf a))))

/-- RDSTAT (R180): the view as it stood before the command; no precondition. -/
def execRdstat (s : State) : Answer :=
  .next (checked true true s (s.complete s.statusView))

end Sys2Proof.Machine
end

