-- ==== Sys2Proof/Machine/Distance.lean ====
section
/-! DEFINITION. The distance command DIST (41_distance.md R120). -/

namespace Sys2Proof.Machine

/-- DIST (R120): no operand is out of range and there is no precondition. -/
def execDist (a b : Word) (s : State) : Answer :=
  .next (checked true true s (s.complete (distanceResult (wordDist a b))))

end Sys2Proof.Machine
end

