-- ==== Sys2Proof/Machine/Dispatch.lean ====
section
/-! DEFINITION. The dispatch from a command to its meaning: one arm for each constructor of Instr. -/

namespace Sys2Proof.Machine

def exec (i : Instr) (s : State) : Host.Outcome State Fault Refusal :=
  match i with
  | .build => Sys2Proof.Machine.execBuild s
  | .enc a => Sys2Proof.Machine.execEnc a s
  | .lookup a => Sys2Proof.Machine.execLookup a s
  | .dist a b => Sys2Proof.Machine.execDist a b s
  | .dec b => Sys2Proof.Machine.execDec b s
  | .cls a b => Sys2Proof.Machine.execCls a b s
  | .clsacc a b => Sys2Proof.Machine.execClsacc a b s
  | .hclr => Sys2Proof.Machine.execHclr s
  | .rdcls a => Sys2Proof.Machine.execRdcls a s
  | .rddh a => Sys2Proof.Machine.execRddh a s
  | .rdstat => Sys2Proof.Machine.execRdstat s

end Sys2Proof.Machine
end

