-- ==== Sys2Proof/Machine/Command.lean ====
section
/-! DEFINITION. Performing one command word (30_encoding.md R65), one rising edge of the clock (R72; 70_reset_and_hazards.md R220), and a run of command words (R231). -/

namespace Sys2Proof.Machine

/-- Decoding and performing one command word (R65): a word that spells no command raises ILLEGAL, whatever the
cause's name (R201). This is the step of R21, from a state and one command word. -/
def perform (w : Cmd) (s : State) : Answer :=
  match decode w with
  | .command i => exec i s
  | .illegal _ => .next (s.raiseError .illegal)

/-- One rising edge of `clk` with the ports `p` (R72, R220): reset wins over a command; a command offered is performed
and its response is valid; without one nothing changes but `rsp_valid`, which becomes 0. -/
def clockEdge (p : PortInputs) (s : State) : Answer :=
  if p.rst then .next s.resetEdge
  else if p.cmdValid then perform p.cmd { s with rspValid := true }
  else .next { s with rspValid := false }

/-- A run of R231: the command words of a list, one after the other; its answer is the end state. -/
def runCommands : List Cmd → State → Answer
  | [], s => .next s
  | w :: ws, s =>
    match perform w s with
    | .next t => runCommands ws t
    | .fault f => .fault f
    | .refused r => .refused r

end Sys2Proof.Machine
end

