-- ==== Sys2Proof/Machine/Step.lean ====
section
/-! DEFINITION. One step of the block: one rising edge of `clk`, with the ports the host drives there. -/

namespace Sys2Proof.Machine

/-- One step: the next edge samples its ports and happens (R72, R220). Log entry 2. -/
def step (s : State) : Host.Outcome State Fault Refusal :=
  clockEdge s.nextInputs s.afterSampling

/-- The host offers the word as its next command: `rst = 0`, `cmd_valid = 1` at the next edge, so that the very next
step performs it. The block fetches nothing (R21); a program is the words a host offers, log entry 3. -/
def State.withFetchWord (s : State) (nbits w : Nat) : State :=
  { s with inputs := PortInputs.offer (tableWord nbits w) :: s.inputs }

end Sys2Proof.Machine
end

