-- ==== Sys2Proof/WellFormed.lean ====
section
/-! DEFINITION. Which commands an assembler may write: the operand ranges of 30_encoding.md R62, as R69 has the assembler check them. -/

namespace Sys2Proof

/-- The index or selector operand of a command is in its legal range (R62). A word operand cannot be out of range.
A command that fails the check is still spelled by a word and still has its meaning, which is INVALID_INPUT (R69). -/
def Instr.wellFormed : Instr → Bool
  | .build => true
  | .enc a => decide (a.toNat < Config.codewordCount)
  | .lookup a => decide (a.toNat < Config.codewordCount)
  | .dist _ _ => true
  | .dec _ => true
  | .cls a _ => decide (a.toNat < Config.codewordCount)
  | .clsacc a _ => decide (a.toNat < Config.codewordCount)
  | .hclr => true
  | .rdcls a => decide (a.toNat < Config.classCount)
  | .rddh a => decide (a.toNat < Config.distanceCount)
  | .rdstat => true

end Sys2Proof
end

