-- ==== Sys2Proof/Machine/Assembler.lean ====
section
/-! DEFINITION. The assembler syntax of 30_encoding.md R69 and the bit strings of 00_scope.md R10, on lists of characters. Host software: no step uses it. -/

namespace Sys2Proof.Machine.Asm

/-- The characters of a source bit string in rising order, as a base's digits: a digit's value is its place, and the
number of digits is the base (R10). -/
def bits : List Char := "01".toList

/-- The decimal digits (R69). -/
def decimals : List Char := "0123456789".toList

/-- The hexadecimal digits, in capitals (R69). -/
def hexadecimals : List Char := "0123456789ABCDEF".toList

/-- The number written in the given digits, most significant first; none for a character that is no digit, and for
an empty text. -/
def numberIn (digits : List Char) (text : List Char) : Option Nat :=
  if text.isEmpty then none
  else text.foldlM (fun high c => (digits.idxOf? c).map fun low => digits.length * high + low) 0

/-- A number that fits the 7-bit field, as the field. -/
def wordOfNat (n : Nat) : Option Word := if n < 128 then some (BitVec.ofNat 7 n) else none

/-- A source bit string of seven characters: string position `j` is wire bit `6 - j` (R10). -/
def wordOfBits (cs : List Char) : Option Word :=
  if cs.length = 7 then (numberIn bits cs).bind wordOfNat else none

/-- The double quote. -/
def quote : Char := Char.ofNat 34

/-- A word operand: `0x00`..`0x7F`, hexadecimal digits in either case, or a quoted bit string (R69). -/
def wordOperand : List Char → Option Word
  | '0' :: 'x' :: digits => (numberIn hexadecimals (digits.map Char.toUpper)).bind wordOfNat
  | c :: cs => if c = quote ∧ cs.getLast? = some quote then wordOfBits cs.dropLast else none
  | [] => none

/-- An index or selector operand, in decimal (R69). -/
def indexOperand (cs : List Char) : Option Word := (numberIn decimals cs).bind wordOfNat

/-- The blanks at both ends taken off. -/
def trim (cs : List Char) : List Char :=
  ((cs.dropWhile (· = ' ')).reverse.dropWhile (· = ' ')).reverse

/-- The pieces between commas, trimmed. -/
def pieces (cs : List Char) : List (List Char) :=
  (cs.foldr (fun c acc =>
    if c = ',' then [] :: acc
    else match acc with
      | [] => [[c]]
      | p :: ps => (c :: p) :: ps) [[]]).map trim

/-- The command a mnemonic and its operands spell, before the range check (R69). -/
def commandOf (mnemonic : List Char) (operands : List (List Char)) : Option Instr :=
  if mnemonic = "BUILD".toList ∧ operands = [[]] then some .build
  else if mnemonic = "HCLR".toList ∧ operands = [[]] then some .hclr
  else if mnemonic = "RDSTAT".toList ∧ operands = [[]] then some .rdstat
  else match operands with
    | [x] =>
      if mnemonic = "ENC".toList then (indexOperand x).map .enc
      else if mnemonic = "LOOKUP".toList then (indexOperand x).map .lookup
      else if mnemonic = "DEC".toList then (wordOperand x).map .dec
      else if mnemonic = "RDCLS".toList then (indexOperand x).map .rdcls
      else if mnemonic = "RDDH".toList then (indexOperand x).map .rddh
      else none
    | [x, y] =>
      if mnemonic = "DIST".toList then (wordOperand x).bind fun a => (wordOperand y).map (.dist a)
      else if mnemonic = "CLS".toList then (indexOperand x).bind fun a => (wordOperand y).map (.cls a)
      else if mnemonic = "CLSACC".toList then (indexOperand x).bind fun a => (wordOperand y).map (.clsacc a)
      else none
    | _ => none

/-- One line of assembler text: the comment from `;` on is dropped, the rest is one command; an index or selector
out of range is rejected (R69). None for a line that is no command. Log entry 4. -/
def assemble (line : List Char) : Option Instr :=
  let text := trim (line.takeWhile (· ≠ ';'))
  let mnemonic := text.takeWhile (· ≠ ' ')
  (commandOf mnemonic (pieces (text.drop mnemonic.length))).filter (·.wellFormed)

end Sys2Proof.Machine.Asm
end

