-- ==== Sys2Proof/Safety.lean ====
section
/-! DEFINITION. What claims about the block speak of: its invariants, the errors of R65 read off a command word, completed trials, and what the codebook's open contents can reach. -/

namespace Sys2Proof.Machine

/-- The state a step or command answers, if it answers one. -/
def nextOf (o : Answer) : Option State :=
  match o with
  | .next s => some s
  | .fault _ => none
  | .refused _ => none

/-- R25: while `CB_VALID = 1`, `CB[i] = codeword(i)` for every `i`. -/
abbrev CodebookInv (s : State) : Prop := s.cbValid = true → ∀ i : Index, cbAt s.cb i = codeword i

/-- R32: `FCODE` is nonzero exactly when `FAULT = 1`. -/
abbrev FaultRecordInv (s : State) : Prop := s.fault = true ↔ s.fcode.code ≠ 0

/-- The equalities of R161 as they survive a wrap: modulo 2^32. -/
abbrev CounterInv (s : State) : Prop :=
  s.cntAt 0 = s.dhAt 0 ∧
  s.cntAt 1 = s.dhAt 1 ∧
  s.cntAt 2 + s.cntAt 3 = s.dhAt 2 + s.dhAt 3 + s.dhAt 4 + s.dhAt 5 + s.dhAt 6 + s.dhAt 7

/-- What every state a run reaches satisfies. -/
abbrev BlockInv (s : State) : Prop := CodebookInv s ∧ FaultRecordInv s ∧ CounterInv s

/-- No command since reset has raised an error (R31, R231). -/
abbrev NoErrorYet (s : State) : Prop := s.fault = false

/-- All twelve counters are 0, as after HCLR or reset (R165, R221). -/
abbrev CountersClear (s : State) : Prop := (∀ k : BitVec 2, s.cntAt k = 0) ∧ ∀ d : Distance, s.dhAt d = 0

/-- Two states differ at most in what `CB` holds while it is not built (R25, R35). -/
abbrev SameButUnbuiltCodebook (s t : State) : Prop :=
  s = t ∨ (s.cbValid = false ∧ { s with cb := t.cb } = t)

/-- What the host sees of the block: its output ports (R71). -/
structure Response where
  valid : Bool
  res : Word32
  stat : BitVec 2
  deriving DecidableEq, Repr

/-- The output ports of a state (R71, R72). -/
def State.response (s : State) : Response := ⟨s.rspValid, s.rspRes, s.rspStat⟩

/-- The word's operand field is used by its opcode (R64). -/
def usesA (op : Nat) : Bool := [2, 3, 4, 6, 7, 9, 10].contains op

/-- The word's operand field is used by its opcode (R64). -/
def usesB (op : Nat) : Bool := [4, 5, 6, 7].contains op

/-- The first legal value above the range of the operand A, by opcode (R62); 128 where A is a word or unused. -/
def limitA (op : Nat) : Nat :=
  if op = 2 ∨ op = 3 ∨ op = 6 ∨ op = 7 then 16
  else if op = 9 then 4
  else if op = 10 then 8
  else 128

/-- The error R65 and R204 have a command word report, read off the word as a number and `CB_VALID` by the rules'
own text (R62, R67, R202), without the decoder: ILLEGAL, then INVALID_INPUT, then PRECONDITION. -/
def firstError (w : Cmd) (cbValid : Bool) : Option ErrorCode :=
  let n := w.toNat
  let op := n / 2 ^ 28
  let a := n / 2 ^ 8 % 2 ^ 7
  let b := n % 2 ^ 7
  if op = 0 ∨ 12 ≤ op then some .illegal
  else if n / 2 ^ 15 % 2 ^ 13 ≠ 0 ∨ n / 2 ^ 7 % 2 ≠ 0 then some .illegal
  else if (usesA op = false ∧ a ≠ 0) ∨ (usesB op = false ∧ b ≠ 0) then some .illegal
  else if limitA op ≤ a then some .invalidInput
  else if op = 1 ∧ cbValid = true then some .precondition
  else if (op = 3 ∨ op = 5 ∨ op = 6 ∨ op = 7) ∧ cbValid = false then some .precondition
  else none

/-- The CLSACC commands of a run that complete with status OK (R161: its trials). -/
def completedTrials : List Cmd → State → Nat
  | [], _ => 0
  | w :: ws, s =>
    match perform w s with
    | .next t => (if fieldOp w = 0x7#4 ∧ t.stat = .ok then 1 else 0) + completedTrials ws t
    | .fault _ => 0
    | .refused _ => 0

/-- The commands of a run that raise an error (R231). -/
def failedCommands : List Cmd → State → Nat
  | [], _ => 0
  | w :: ws, s =>
    match perform w s with
    | .next t => (if t.stat = .ok then 0 else 1) + failedCommands ws t
    | .fault _ => 0
    | .refused _ => 0

end Sys2Proof.Machine
end

