-- ==== Sys2Proof/Certificates/Slice0/Obligations.lean ====
section
/-! DEFINITION. The statements for the provers, from the numbered rules of spec/. -/

open Sys2Proof Sys2Proof.Machine

/-! ## Words and commands -/

/-- R64: in particular these words, written out bit by bit from the encodings of the table, spell these commands, and
R67: these spell none. (The name of the cause is the model's choice, log entry 5.) -/
def Obligations.WordsOfTheTableDecode : Prop :=
  decode 0b00010000000000000000000000000000#32 = .command .build ∧
  decode 0b00100000000000000000101100000000#32 = .command (.enc 11) ∧
  decode 0b00110000000000000111111100000000#32 = .command (.lookup 127) ∧
  decode 0b01000000000000000101101001001010#32 = .command (.dist 0x5A 0x4A) ∧
  decode 0b01010000000000000000000001001010#32 = .command (.dec 0x4A) ∧
  decode 0b01100000000000000000101101001010#32 = .command (.cls 11 0x4A) ∧
  decode 0b01110000000000000000101101001010#32 = .command (.clsacc 11 0x4A) ∧
  decode 0b10000000000000000000000000000000#32 = .command .hclr ∧
  decode 0b10010000000000000000001100000000#32 = .command (.rdcls 3) ∧
  decode 0b10100000000000000000011100000000#32 = .command (.rddh 7) ∧
  decode 0b10110000000000000000000000000000#32 = .command .rdstat ∧
  decode 0x00000000#32 = .illegal .reservedOpcode ∧
  decode 0xC0000000#32 = .illegal .reservedOpcode ∧
  decode 0x40000080#32 = .illegal .reservedBits ∧
  decode 0x28000000#32 = .illegal .reservedBits ∧
  decode 0x50000100#32 = .illegal .unusedOperand

/-- R61, R64: decoding the word of any command gives that command back, with every operand at every value. -/
def Obligations.DecodeOfEncode : Prop :=
  ∀ i : Instr, decode (encode i) = .command i

/-- R64: a word spells at most one command, and it is that command's only word. -/
def Obligations.EncodeOfDecode : Prop :=
  ∀ (w : Cmd) (i : Instr), decode w = .command i → encode i = w

/-- R64: a word selects a command exactly when `(cmd & mask) == match` for that command's row, and at most one row
matches any word. The pairs are the table's columns, in its order. -/
def Obligations.WordSelectsByMatchAndMask : Prop :=
  let table : List (Cmd × Cmd) :=
    [ (0x10000000, 0xFFFFFFFF), (0x20000000, 0xFFFF80FF), (0x30000000, 0xFFFF80FF), (0x40000000, 0xFFFF8080),
      (0x50000000, 0xFFFFFF80), (0x60000000, 0xFFFF8080), (0x70000000, 0xFFFF8080), (0x80000000, 0xFFFFFFFF),
      (0x90000000, 0xFFFF80FF), (0xA0000000, 0xFFFF80FF), (0xB0000000, 0xFFFFFFFF) ]
  ∀ w : Cmd,
    (∀ k < 11, (∃ i : Instr, decode w = .command i ∧ i.opcode.toNat = k + 1) ↔
      w &&& (table.getD k (0, 0)).2 = (table.getD k (0, 0)).1) ∧
    (∀ j < 11, ∀ k < 11, w &&& (table.getD j (0, 0)).2 = (table.getD j (0, 0)).1 →
      w &&& (table.getD k (0, 0)).2 = (table.getD k (0, 0)).1 → j = k) ∧
    ((∀ k < 11, w &&& (table.getD k (0, 0)).2 ≠ (table.getD k (0, 0)).1) ↔ ∃ why, decode w = .illegal why)

/-- R67: a word is illegal exactly when its opcode is reserved, a reserved bit is set, or a field its command does not
use is nonzero. That the decoder names the first of these three causes is the model's choice, log entry 5: the rule
gives the causes no order, and all of them raise the one code ILLEGAL (R201). -/
def Obligations.IllegalWordsByCause : Prop :=
  ∀ w : Cmd,
    let op := w.toNat / 2 ^ 28
    let reservedOp := op = 0 ∨ 12 ≤ op
    let reservedBits := w.toNat / 2 ^ 15 % 2 ^ 13 ≠ 0 ∨ w.toNat / 2 ^ 7 % 2 ≠ 0
    let unusedSet := (usesA op = false ∧ w.toNat / 2 ^ 8 % 2 ^ 7 ≠ 0) ∨ (usesB op = false ∧ w.toNat % 2 ^ 7 ≠ 0)
    (decode w = .illegal .reservedOpcode ↔ reservedOp) ∧
    (decode w = .illegal .reservedBits ↔ ¬ reservedOp ∧ reservedBits) ∧
    (decode w = .illegal .unusedOperand ↔ ¬ reservedOp ∧ ¬ reservedBits ∧ unusedSet)

/-- R69: an assembler rejects an index or selector out of range, so every command it writes is well formed; and the
rule's own example assembles to 0x40005A4A. -/
def Obligations.AssemblerWritesOnlyOperandsInRange : Prop :=
  (∀ (line : List Char) (i : Instr), Asm.assemble line = some i → i.wellFormed = true) ∧
  (Asm.assemble "DIST \"1011010\", \"1001010\"".toList).map encode = some 0x40005A4A#32

/-- R10: in a source bit string, string position `j` is wire bit `6 - j`, for every word. -/
def Obligations.BitStringsReadMostSignificantFirst : Prop :=
  ∀ w : Word, Asm.wordOfBits ((List.range 7).map fun j => if w.getLsbD (6 - j) then '1' else '0') = some w

/-! ## A step -/

/-- R65, R72: when the word offered at the next edge spells a command, the step is that command's meaning, on the state
with the input taken and `rsp_valid` set. -/
def Obligations.StepRunsTheDecodedCommand : Prop :=
  ∀ (s : State) (p : PortInputs) (rest : List PortInputs) (i : Instr),
    s.inputs = p :: rest → p.rst = false → p.cmdValid = true → decode p.cmd = .command i →
    step s = exec i { s with inputs := rest, rspValid := true }

/-- R65, R203: when the word offered spells no command, the step raises ILLEGAL, code 3. -/
def Obligations.StepRaisesIllegalOnOtherWords : Prop :=
  ∀ (s : State) (p : PortInputs) (rest : List PortInputs) (why : Illegal),
    s.inputs = p :: rest → p.rst = false → p.cmdValid = true → decode p.cmd = .illegal why →
    step s = .next { s with
      inputs := rest, rspValid := true, res := 0, stat := .illegal,
      fcode := if s.fault then s.fcode else .illegal, fault := true }

/-- The host's placing of a word is what the next step performs (R72; how a program reaches the block is log entry 3). -/
def Obligations.StepPerformsThePlacedWord : Prop :=
  ∀ (s : State) (nbits w : Nat),
    step (s.withFetchWord nbits w) = perform (BitVec.ofNat 32 (w % 2 ^ nbits)) { s with rspValid := true }

/-- R220: at an edge with `rst = 1` every piece of state takes its reset value and `rsp_valid` becomes 0, whether or not
a command is offered at that edge. (What `CB` holds then is the open parameter of D32, log entry 1.) -/
def Obligations.ResetEdgeGivesTheResetState : Prop :=
  ∀ (s : State) (p : PortInputs) (rest : List PortInputs),
    s.inputs = p :: rest → p.rst = true → step s = .next { State.reset with inputs := rest }

/-- R72: at an edge with `rst = 0` and `cmd_valid = 0` no state changes and `rsp_valid` becomes 0. An edge for which
nothing is listed is such an edge: the model's choice, log entry 2. -/
def Obligations.IdleEdgeKeepsTheState : Prop :=
  (∀ (s : State) (p : PortInputs) (rest : List PortInputs),
    s.inputs = p :: rest → p.rst = false → p.cmdValid = false →
    step s = .next { s with inputs := rest, rspValid := false }) ∧
  (∀ s : State, s.inputs = [] → step s = .next { s with rspValid := false })

/-- R72: a command accepted at an edge has its response on the ports after it, whatever it does. -/
def Obligations.EveryOfferedCommandGetsAResponse : Prop :=
  ∀ (s : State) (p : PortInputs) (rest : List PortInputs),
    s.inputs = p :: rest → p.rst = false → p.cmdValid = true →
    ∃ t, step s = .next t ∧ t.response = ⟨true, t.res, t.stat.code⟩ ∧ t.inputs = rest

/-- R20, R220, R221: the values the spec gives for reset. (`CB` has none: log entry 1.) -/
def Obligations.ResetLeavesTheSpecValues : Prop :=
  State.reset.cbValid = false ∧ CountersClear State.reset ∧ State.reset.res = 0 ∧ State.reset.stat.code = 0 ∧
  State.reset.fault = false ∧ State.reset.fcode.code = 0 ∧ State.reset.rspValid = false

/-- R206, R231: no step stops, and no run of command words fails to end in a state. -/
def Obligations.EveryStepAndEveryRunAnswersNext : Prop :=
  (∀ s : State, ∃ t, step s = .next t) ∧ (∀ (ws : List Cmd) (s : State), ∃ t, runCommands ws s = .next t)

/-- R46, R231: offering a list of words at successive edges performs them one at a time, in order, and ends in the
state of the run of words. -/
def Obligations.StepsRefineTheRunOfCommands : Prop :=
  ∀ (ws : List Cmd) (s t : State), runCommands ws s = .next t →
    Sys2Proof.core.run ws.length { s with inputs := ws.map PortInputs.offer } =
      .next { t with inputs := [], rspValid := if ws.isEmpty then s.rspValid else true }

/-! ## Errors -/

/-- R203, R204: each word reports exactly one status, the first error that applies in the order ILLEGAL, INVALID_INPUT,
PRECONDITION (read off the word by `firstError`, from R62, R67 and R202); an error makes exactly the four writes. -/
def Obligations.FirstErrorIsReportedAndRecorded : Prop :=
  ∀ (w : Cmd) (s : State),
    (∀ e, firstError w s.cbValid = some e →
      perform w s = .next { s with
        res := 0, stat := e.status, fcode := if s.fault then s.fcode else e.status, fault := true }) ∧
    (firstError w s.cbValid = none →
      ∃ t, perform w s = .next t ∧ t.stat = .ok ∧ t.fault = s.fault ∧ t.fcode = s.fcode)

/-- R41, R62, R201: an index above 15 or a selector above 3 or 7 is not truncated or wrapped: it raises INVALID_INPUT,
code 1, whatever else holds. -/
def Obligations.OperandsOutOfRangeRaiseInvalidInput : Prop :=
  ∀ (s : State) (a b : Word),
    let raised : State := { s with
      res := 0, stat := .invalidInput, fcode := if s.fault then s.fcode else .invalidInput, fault := true }
    (16 ≤ a.toNat → exec (.enc a) s = .next raised ∧ exec (.lookup a) s = .next raised ∧
      exec (.cls a b) s = .next raised ∧ exec (.clsacc a b) s = .next raised) ∧
    (4 ≤ a.toNat → exec (.rdcls a) s = .next raised) ∧
    (8 ≤ a.toNat → exec (.rddh a) s = .next raised)

/-- R202: the commands that read the codebook raise PRECONDITION, code 2, while it is not built, and BUILD raises it
once it is. -/
def Obligations.CodebookStateRaisesPrecondition : Prop :=
  ∀ (s : State) (a b : Word),
    let raised : State := { s with
      res := 0, stat := .precondition, fcode := if s.fault then s.fcode else .precondition, fault := true }
    (s.cbValid = false → exec (.dec b) s = .next raised ∧
      (a.toNat ≤ 15 → exec (.lookup a) s = .next raised ∧ exec (.cls a b) s = .next raised ∧
        exec (.clsacc a b) s = .next raised)) ∧
    (s.cbValid = true → exec .build s = .next raised)

/-- R31: the first error sets `FAULT`, a command that completes does not change it, no command clears it, and only
reset does. -/
def Obligations.FaultIsStickyUntilReset : Prop :=
  (∀ (w : Cmd) (s t : State), perform w s = .next t →
    (t.stat ≠ .ok → t.fault = true) ∧ (t.stat = .ok → t.fault = s.fault) ∧ (s.fault = true → t.fault = true)) ∧
  (∀ s t : State, step s = .next t → s.fault = true → t.fault = false → s.nextInputs.rst = true) ∧
  (∀ s t : State, step s = .next t → s.nextInputs.rst = true → t.fault = false)

/-- R32: `FCODE` holds the code of the first error since reset: it takes the code of an error raised while
`FAULT = 0`, and nothing changes it while `FAULT = 1`; after reset it is 0; and it is nonzero exactly when `FAULT = 1`
(an invariant of commands that holds at reset). -/
def Obligations.FcodeKeepsTheFirstErrorCode : Prop :=
  (∀ (w : Cmd) (s t : State), perform w s = .next t →
    (t.stat ≠ .ok → s.fault = false → t.fcode = t.stat) ∧
    (s.fault = true → t.fcode = s.fcode) ∧
    (t.stat = .ok → t.fcode = s.fcode) ∧
    (FaultRecordInv s → FaultRecordInv t)) ∧
  State.reset.fcode.code = 0 ∧ FaultRecordInv State.reset

/-- R206: after an error the next command is performed as usual, whatever the error record holds: but for RDSTAT, which
reads it, every command does the same to everything else. -/
def Obligations.CommandsIgnoreTheErrorRecord : Prop :=
  ∀ (i : Instr) (s t : State) (f : Bool) (c : Status), i ≠ .rdstat → exec i s = .next t →
    ∃ u, exec i { s with fault := f, fcode := c } = .next u ∧
      u = { t with fault := u.fault, fcode := u.fcode }

/-- R22: no command reads `RES` or `STAT` as an input. -/
def Obligations.CommandsIgnoreResAndStat : Prop :=
  ∀ (i : Instr) (s : State) (r : Word32) (c : Status), exec i { s with res := r, stat := c } = exec i s

/-- R231: a claim about a run reads `FAULT` to tell whether any command failed: from a state with no error yet, it is 1
at the end exactly when some command of the run raised an error. -/
def Obligations.FaultTellsWhetherAnyCommandFailed : Prop :=
  ∀ (ws : List Cmd) (s t : State), NoErrorYet s → runCommands ws s = .next t →
    (t.fault = true ↔ 0 < failedCommands ws s)

/-- R150, R200: the numbers of the outcome classes and of the status codes. -/
def Obligations.ClassAndStatusCodes : Prop :=
  [TrialClass.noError, .detectedCorrected, .undetected, .detectedUncorrected].map TrialClass.code = [0, 1, 2, 3] ∧
  [Status.ok, .invalidInput, .precondition, .illegal].map Status.code = [0, 1, 2, 3]

/-! ## Codebook and encoder -/

/-- R100: with the codebook not built, BUILD completes: every entry `i` holds `codeword(i)`, `CB_VALID` is 1, `RES` is 0,
and nothing else changes. -/
def Obligations.BuildInitialisesTheCodebook : Prop :=
  ∀ s : State, s.cbValid = false →
    ∃ t, exec .build s = .next t ∧ (∀ i : Index, cbAt t.cb i = codeword i) ∧
      t = { s with cb := t.cb, cbValid := true, res := 0, stat := .ok }

/-- R101: the table of the sixteen codewords. -/
def Obligations.BuildWritesTheTable : Prop :=
  ∀ s t : State, exec .build s = .next t → s.cbValid = false →
    t.cb.toList = [0x00, 0x0F, 0x16, 0x19, 0x25, 0x2A, 0x33, 0x3C, 0x43, 0x4C, 0x55, 0x5A, 0x66, 0x69, 0x70, 0x7F]

/-- R24, R34: BUILD alone writes the codebook, and only from `CB_VALID = 0` to 1; nothing but reset sets it back. -/
def Obligations.OnlyBuildWritesTheCodebook : Prop :=
  (∀ (w : Cmd) (s t : State), perform w s = .next t → (t.cb ≠ s.cb ∨ t.cbValid ≠ s.cbValid) →
    w = 0x10000000#32 ∧ s.cbValid = false ∧ t.cbValid = true) ∧
  (∀ s t : State, step s = .next t → s.cbValid = true → t.cbValid = false → s.nextInputs.rst = true)

/-- R103: ENC is this combinational logic, for every message, built codebook or not; nothing else changes. -/
def Obligations.EncIsTheParityLogic : Prop :=
  ∀ (s : State) (a : Word), a.toNat ≤ 15 →
    ∃ cw : Word, exec (.enc a) s = .next { s with res := cw.setWidth 32, stat := .ok } ∧
      cw[6] = a[3] ∧ cw[5] = a[2] ∧ cw[4] = a[1] ∧ cw[3] = a[0] ∧
      cw[2] = (a[2] ^^ a[1] ^^ a[0]) ∧ cw[1] = (a[3] ^^ a[1] ^^ a[0]) ∧ cw[0] = (a[3] ^^ a[2] ^^ a[0])

/-- R104: LOOKUP of a built codebook returns entry A, whatever the entries are; nothing else changes. -/
def Obligations.LookupReturnsTheEntry : Prop :=
  ∀ (s : State) (a : Word) (h : a.toNat < 16), s.cbValid = true →
    exec (.lookup a) s = .next { s with res := (s.cb[a.toNat]).setWidth 32, stat := .ok }

/-- R105: after a successful BUILD, LOOKUP with index `i` and ENC with message `i` answer the same. `CodebookInv` is the
invariant R25 of a built codebook. -/
def Obligations.LookupAgreesWithEnc : Prop :=
  ∀ (s : State) (a : Word), CodebookInv s → s.cbValid = true → a.toNat ≤ 15 →
    exec (.lookup a) s = exec (.enc a) s

/-- R106 and R109: the code is systematic and linear, so the distance of two codewords is the weight of a codeword. -/
def Obligations.CodeIsSystematicAndLinear : Prop :=
  (∀ i : Index, (codeword i).extractLsb' 3 4 = i) ∧
  (∀ i j : Index, codeword i ^^^ codeword j = codeword (i ^^^ j)) ∧
  (∀ i j : Index, wordDist (codeword i) (codeword j) = popcount7 (codeword (i ^^^ j)))

/-- R107: the sixteen codewords are distinct, with these weights. -/
def Obligations.CodewordsAreDistinctWithWeights : Prop :=
  (∀ i j : Index, codeword i = codeword j → i = j) ∧
  (∀ i : Index, popcount7 (codeword i) =
    if i = 0 then 0
    else if i ∈ [2, 3, 4, 5, 8, 9, 14] then 3
    else if i ∈ [1, 6, 7, 10, 11, 12, 13] then 4
    else 7)

/-- R108: the minimum distance is exactly 3. -/
def Obligations.MinimumDistanceIsThree : Prop :=
  (∀ i j : Index, i ≠ j → Config.minimumDistance ≤ (wordDist (codeword i) (codeword j)).toNat) ∧
  (∃ i j : Index, i ≠ j ∧ (wordDist (codeword i) (codeword j)).toNat = Config.minimumDistance) ∧
  codeword 0 = 0x00 ∧ codeword 2 = 0x16 ∧ wordDist 0x00 0x16 = 3

/-! ## Distance -/

/-- R120, R13: DIST returns the count of the bit positions in which its operands differ, from any state; nothing else
changes. -/
def Obligations.DistCountsDifferingPositions : Prop :=
  ∀ (s : State) (a b : Word),
    exec (.dist a b) s = .next { s with
      res := BitVec.ofNat 32 ((List.range 7).countP fun j => a.getLsbD j != b.getLsbD j), stat := .ok }

/-- R121: the laws of `dist`. -/
def Obligations.DistIsAMetric : Prop :=
  ∀ a b c e : Word,
    wordDist a b = wordDist b a ∧ wordDist a a = 0 ∧ (wordDist a b = 0 ↔ a = b) ∧
    (wordDist a c).toNat ≤ (wordDist a b).toNat + (wordDist b c).toNat ∧
    0 ≤ (wordDist a b).toNat ∧ (wordDist a b).toNat ≤ 7 ∧ wordDist (a ^^^ e) a = popcount7 e

/-! ## Decoder -/

/-- R130: `is_codeword(r)` is true exactly when `CB[i] = r` for some `i`, whatever the codebook holds; in a built one,
exactly when `r` is one of the sixteen codewords. -/
def Obligations.IsCodewordSearchesTheCodebook : Prop :=
  (∀ (cb : Vector Word 16) (r : Word), isCodeword cb r = true ↔ ∃ i : Index, cbAt cb i = r) ∧
  (∀ (s : State) (r : Word), CodebookInv s → s.cbValid = true → (isCodeword s.cb r = true ↔ ∃ i : Index, codeword i = r))

/-- R136: the complete decode table. Row `i` lists codeword `i` and its neighbours by flipped wire bit 6 down to 0, and
all eight decode to codeword `i`, at distance 0 for the codeword and 1 for each neighbour. -/
def Obligations.DecodeTableIsComplete : Prop :=
  let table : List (List Word) :=
    [ [0x00, 0x40, 0x20, 0x10, 0x08, 0x04, 0x02, 0x01], [0x0F, 0x4F, 0x2F, 0x1F, 0x07, 0x0B, 0x0D, 0x0E],
      [0x16, 0x56, 0x36, 0x06, 0x1E, 0x12, 0x14, 0x17], [0x19, 0x59, 0x39, 0x09, 0x11, 0x1D, 0x1B, 0x18],
      [0x25, 0x65, 0x05, 0x35, 0x2D, 0x21, 0x27, 0x24], [0x2A, 0x6A, 0x0A, 0x3A, 0x22, 0x2E, 0x28, 0x2B],
      [0x33, 0x73, 0x13, 0x23, 0x3B, 0x37, 0x31, 0x32], [0x3C, 0x7C, 0x1C, 0x2C, 0x34, 0x38, 0x3E, 0x3D],
      [0x43, 0x03, 0x63, 0x53, 0x4B, 0x47, 0x41, 0x42], [0x4C, 0x0C, 0x6C, 0x5C, 0x44, 0x48, 0x4E, 0x4D],
      [0x55, 0x15, 0x75, 0x45, 0x5D, 0x51, 0x57, 0x54], [0x5A, 0x1A, 0x7A, 0x4A, 0x52, 0x5E, 0x58, 0x5B],
      [0x66, 0x26, 0x46, 0x76, 0x6E, 0x62, 0x64, 0x67], [0x69, 0x29, 0x49, 0x79, 0x61, 0x6D, 0x6B, 0x68],
      [0x70, 0x30, 0x50, 0x60, 0x78, 0x74, 0x72, 0x71], [0x7F, 0x3F, 0x5F, 0x6F, 0x77, 0x7B, 0x7D, 0x7E] ]
  (∀ i < 16, ∀ k < 8, nearest codebook ((table.getD i []).getD k 0) =
    ⟨(table.getD i []).getD 0 0, BitVec.ofNat 4 i, if k = 0 then 0 else 1⟩) ∧
  (∀ i < 16, ∀ k < 7, (table.getD i []).getD (k + 1) 0 = (table.getD i []).getD 0 0 ^^^ 0x40 >>> k) ∧
  (∀ r : Word, r ∈ table.flatten)

/-- R131, R132: whatever the codebook holds, DEC returns the entry of least distance with the lowest index, its index
and the distance; nothing else changes. -/
def Obligations.DecReturnsTheFirstNearestEntry : Prop :=
  ∀ (s : State) (b : Word), s.cbValid = true →
    ∃ ci : Index,
      (∀ j : Index, (wordDist (cbAt s.cb ci) b).toNat ≤ (wordDist (cbAt s.cb j) b).toNat) ∧
      (∀ j : Index, j.toNat < ci.toNat → (wordDist (cbAt s.cb ci) b).toNat < (wordDist (cbAt s.cb j) b).toNat) ∧
      exec (.dec b) s = .next { s with
        res := BitVec.ofNat 32 ((wordDist (cbAt s.cb ci) b).toNat * 2 ^ 16 + ci.toNat * 2 ^ 8 + (cbAt s.cb ci).toNat),
        stat := .ok }

/-- R135: the syndrome form computes the same function as the search, on all 128 words: DEC of a built codebook returns
the flipped word, its bits 6:3 as the index, and distance 0 exactly when the syndrome is 0, in which case the word is a
codeword; and PRECONDITION stays while the codebook is not built. -/
def Obligations.DecEqualsTheSyndromeForm : Prop :=
  ∀ (s : State) (r : Word), CodebookInv s →
    (s.cbValid = true →
      (nearest s.cb r).word = syndromeWord r ∧
      (syndrome r = 0 → isCodeword s.cb r = true) ∧
      exec (.dec r) s = .next { s with
        res := BitVec.ofNat 32 ((if syndrome r = 0 then 0 else 1) * 2 ^ 16 +
          (syndromeWord r).toNat / 2 ^ 3 * 2 ^ 8 + (syndromeWord r).toNat),
        stat := .ok }) ∧
    (s.cbValid = false → ∃ t, exec (.dec r) s = .next t ∧ t.stat = .precondition)

/-- R133: DEC returns every codeword unchanged, and corrects every single flipped bit. -/
def Obligations.SingleErrorsAreCorrected : Prop :=
  ∀ (s : State) (i : Index) (e : Word), CodebookInv s → s.cbValid = true →
    nearest s.cb (codeword i) = ⟨codeword i, i, 0⟩ ∧
    exec (.dec (codeword i)) s = .next { s with
      res := BitVec.ofNat 32 (i.toNat * 2 ^ 8 + (codeword i).toNat), stat := .ok } ∧
    (popcount7 e = 1 →
      nearest s.cb (codeword i ^^^ e) = ⟨codeword i, i, 1⟩ ∧
      exec (.dec (codeword i ^^^ e)) s = .next { s with
        res := BitVec.ofNat 32 (2 ^ 16 + i.toNat * 2 ^ 8 + (codeword i).toNat), stat := .ok })

/-- R134: every word is a codeword, or at distance exactly 1 from exactly one codeword; `dm` is 0 exactly for the
codewords, and 1 for the other words; the codewords and their one-bit neighbours are all 128 words, each once. -/
def Obligations.EveryWordIsWithinOneOfOneCodeword : Prop :=
  ∀ (s : State) (r : Word), CodebookInv s → s.cbValid = true →
    (isCodeword s.cb r = true ∨ ∃! i : Index, wordDist (codeword i) r = 1) ∧
    (∃! i : Index, (wordDist (codeword i) r).toNat ≤ 1) ∧
    ((nearest s.cb r).distance = 0 ∨ (nearest s.cb r).distance = 1) ∧
    ((nearest s.cb r).distance = 0 ↔ isCodeword s.cb r = true)

/-- R137: with two or more bits wrong the decoder never returns the transmitted codeword; it returns a received codeword
itself, and else the one codeword at distance 1. -/
def Obligations.TwoErrorsAreNeverCorrected : Prop :=
  ∀ (s : State) (i : Index) (r : Word), CodebookInv s → s.cbValid = true → 2 ≤ (wordDist (codeword i) r).toNat →
    ∃ t, exec (.dec r) s = .next t ∧ t.res.extractLsb' 0 7 ≠ codeword i ∧
      (isCodeword s.cb r = true → t.res.extractLsb' 0 7 = r) ∧
      (isCodeword s.cb r = false → wordDist (t.res.extractLsb' 0 7) r = 1 ∧
        ∀ j : Index, wordDist (codeword j) r = 1 → codeword j = t.res.extractLsb' 0 7)

/-! ## Classification and counters -/

/-- R153: of the source's four class conditions of R150 exactly one holds, and `classify` returns that class; class 1
decodes to the transmitted word; class 3 does not, at distance 2 or more. -/
def Obligations.ExactlyOneClassConditionHolds : Prop :=
  ∀ (s : State) (i : Index) (r : Word), CodebookInv s → s.cbValid = true →
    let t := codeword i
    let k := (classify s.cb t r).cls
    (k = .noError ↔ r = t) ∧
    (k = .detectedCorrected ↔ wordDist t r = 1) ∧
    (k = .undetected ↔ r ≠ t ∧ isCodeword s.cb r = true) ∧
    (k = .detectedUncorrected ↔ (nearest s.cb r).word ≠ t ∧ isCodeword s.cb r = false) ∧
    (k = .detectedCorrected → (nearest s.cb r).word = t) ∧
    (k = .detectedUncorrected → (nearest s.cb r).word ≠ t ∧ 2 ≤ (wordDist t r).toNat)

/-- R152, R154: CLS of a built codebook returns the class, which depends on the error pattern alone, the distance, and
the decoded codeword with its index (R135's); nothing else changes, no counter in particular. -/
def Obligations.ClsReportsTheErrorPattern : Prop :=
  ∀ (s : State) (a r : Word), CodebookInv s → s.cbValid = true → a.toNat ≤ 15 →
    let e := codeword (a.setWidth 4) ^^^ r
    let k : Nat := if e = 0 then 0 else if popcount7 e = 1 then 1 else if ∃ j : Index, codeword j = e then 2 else 3
    exec (.cls a r) s = .next { s with
      res := BitVec.ofNat 32 ((syndromeWord r).toNat / 2 ^ 3 * 2 ^ 24 + (syndromeWord r).toNat * 2 ^ 16 +
        (popcount7 e).toNat * 2 ^ 8 + k),
      stat := .ok }

/-- R155: for one transmitted codeword and all 128 received words, how many have each distance and class: the table's
rows, its totals, and its class 2 column, which counts the nonzero codewords of each weight. -/
def Obligations.ClassesByDistanceTable : Prop :=
  ∀ (s : State) (i : Index), CodebookInv s → s.cbValid = true →
    let words : List Word := (List.range 128).map (BitVec.ofNat 7)
    let count := fun (p : Trial → Bool) => words.countP fun r => p (classify s.cb (codeword i) r)
    (∀ d : Distance,
      (count (fun x => x.distance = d),
        count (fun x => x.distance = d && x.cls = .noError), count (fun x => x.distance = d && x.cls = .detectedCorrected),
        count (fun x => x.distance = d && x.cls = .undetected), count (fun x => x.distance = d && x.cls = .detectedUncorrected)) =
      [(1, 1, 0, 0, 0), (7, 0, 7, 0, 0), (21, 0, 0, 0, 21), (35, 0, 0, 7, 28), (35, 0, 0, 7, 28), (21, 0, 0, 0, 21),
        (7, 0, 0, 0, 7), (1, 0, 0, 1, 0)].getD d.toNat (0, 0, 0, 0, 0)) ∧
    (count (fun _ => true), count (fun x => x.cls = .noError), count (fun x => x.cls = .detectedCorrected),
      count (fun x => x.cls = .undetected), count (fun x => x.cls = .detectedUncorrected)) = (128, 1, 7, 15, 105) ∧
    (∀ d : Distance, count (fun x => x.distance = d && x.cls = .undetected) =
      ((List.range 16).map (BitVec.ofNat 4)).countP fun j => codeword j ≠ 0 ∧ popcount7 (codeword j) = d)

/-- R156: the class is not a function of the distance alone: at distances 3 and 4 some received words are class 2 and
others class 3. -/
def Obligations.ClassIsNotAFunctionOfDistance : Prop :=
  ∀ (s : State) (i : Index) (d : Distance), CodebookInv s → s.cbValid = true → d = 3 ∨ d = 4 →
    ∃ r r' : Word, wordDist (codeword i) r = d ∧ wordDist (codeword i) r' = d ∧
      (classify s.cb (codeword i) r).cls.code = 2 ∧ (classify s.cb (codeword i) r').cls.code = 3

/-- R160, R171: CLSACC returns what CLS returns and adds one, modulo 2^32, to the counter of its class and to the
counter of its distance, and to no other; nothing else changes. -/
def Obligations.ClsaccCountsItsTrial : Prop :=
  ∀ (s : State) (a r : Word) (h : a.toNat < 16), s.cbValid = true →
    let x := classify s.cb s.cb[a.toNat] r
    ∃ t, exec (.clsacc a r) s = .next t ∧
      (∀ k : BitVec 2, (t.cntAt k).toNat = if k = x.cls.code then ((s.cntAt k).toNat + 1) % 2 ^ 32 else (s.cntAt k).toNat) ∧
      (∀ d : Distance, (t.dhAt d).toNat = if d = x.distance then ((s.dhAt d).toNat + 1) % 2 ^ 32 else (s.dhAt d).toNat) ∧
      t = { s with cnt := t.cnt, dh := t.dh, res := t.res, stat := .ok } ∧
      exec (.cls a r) s = .next { s with res := t.res, stat := .ok } ∧
      t.res = BitVec.ofNat 32 (x.index.toNat * 2 ^ 24 + x.word.toNat * 2 ^ 16 + x.distance.toNat * 2 ^ 8 + x.cls.code.toNat)

/-- R165: HCLR clears all twelve counters from any state, `RES` is 0, nothing else changes, and repeating it has no
further effect. -/
def Obligations.HclrClearsTheCounters : Prop :=
  ∀ s : State, ∃ t, exec .hclr s = .next t ∧ CountersClear t ∧
    t = { s with cnt := t.cnt, dh := t.dh, res := 0, stat := .ok } ∧ exec .hclr t = .next t

/-- R167: RDCLS returns class counter A, from any state; nothing else changes. -/
def Obligations.RdclsReturnsTheCounter : Prop :=
  ∀ (s : State) (a : Word) (h : a.toNat < 4),
    exec (.rdcls a) s = .next { s with res := s.cnt[a.toNat], stat := .ok }

/-- R169: RDDH returns histogram counter A, from any state; nothing else changes. -/
def Obligations.RddhReturnsTheCounter : Prop :=
  ∀ (s : State) (a : Word) (h : a.toNat < 8),
    exec (.rddh a) s = .next { s with res := s.dh[a.toNat], stat := .ok }

/-- R33, R180: RDSTAT returns the status view, bit by bit, from any state; nothing else changes, the error record in
particular. -/
def Obligations.RdstatReturnsTheStatusView : Prop :=
  ∀ s : State, ∃ v : Word32, exec .rdstat s = .next { s with res := v, stat := .ok } ∧
    v[0] = s.cbValid ∧ v[1] = s.fault ∧ v.extractLsb' 2 2 = 0 ∧ v.extractLsb' 4 2 = s.fcode.code ∧
    v.extractLsb' 6 26 = 0

/-- R34, R171: only CLSACC and HCLR write a counter. -/
def Obligations.OnlyClsaccAndHclrWriteCounters : Prop :=
  ∀ (w : Cmd) (s t : State), perform w s = .next t → (t.cnt ≠ s.cnt ∨ t.dh ≠ s.dh) →
    (w.toNat / 2 ^ 28 = 7 ∨ w = 0x80000000#32) ∧ t.stat = .ok

/-- R161, R162: from a state with all counters clear (as reset and HCLR leave them), after any words with no HCLR among
them of which `n < 2^32` are CLSACC commands that complete, the counters stand in these relations; in particular the
direct NoError count is `n` less the other three. `CodebookInv` is the invariant R25. -/
def Obligations.CounterRelationsWithoutWrap : Prop :=
  ∀ (ws : List Cmd) (s t : State), CodebookInv s → CountersClear s → 0x80000000#32 ∉ ws → runCommands ws s = .next t →
    completedTrials ws s < 2 ^ 32 →
    let n := completedTrials ws s
    let c := fun k : BitVec 2 => (t.cntAt k).toNat
    let d := fun j : Distance => (t.dhAt j).toNat
    c 0 + c 1 + c 2 + c 3 = n ∧
    d 0 + d 1 + d 2 + d 3 + d 4 + d 5 + d 6 + d 7 = n ∧
    c 0 = d 0 ∧ c 1 = d 1 ∧ c 2 + c 3 = d 2 + d 3 + d 4 + d 5 + d 6 + d 7 ∧
    d 7 ≤ c 2 ∧ d 2 + d 5 + d 6 ≤ c 3 ∧
    c 0 = n - c 1 - c 2 - c 3

/-! ## Frames -/

/-- The frame of the commands that write no counter and no codebook, ENC, LOOKUP, DIST, DEC, CLS, RDCLS, RDDH and RDSTAT
(R20, R45, R203), in every form: they change `RES` and `STAT` alone, and the error record where they raise an error;
and one that completes gives the same answer when it is repeated. -/
def Obligations.FrameOfTheReadingCommands : Prop :=
  ∀ (i : Instr) (s t : State), i ≠ .build → i ≠ .hclr → (∀ a b, i ≠ .clsacc a b) → exec i s = .next t →
    t = { s with res := t.res, stat := t.stat, fault := t.fault, fcode := t.fcode } ∧
    (t.stat = .ok → t = { s with res := t.res, stat := .ok } ∧ exec i t = .next t)

/-- The frame of the commands that write counters, CLSACC and HCLR (R20, R203): they leave the codebook, `CB_VALID` and
the ports, and the error record where they complete; where they raise an error, the counters too. -/
def Obligations.FrameOfTheCountingCommands : Prop :=
  ∀ (i : Instr) (s t : State), (i = .hclr ∨ ∃ a b, i = .clsacc a b) → exec i s = .next t →
    (t.stat = .ok → t = { s with cnt := t.cnt, dh := t.dh, res := t.res, stat := .ok }) ∧
    (t.stat ≠ .ok → t = { s with res := 0, stat := t.stat, fault := true, fcode := t.fcode })

/-- The frame of BUILD (R20, R100, R203): the counters and the ports are unchanged, and the error record where it
completes; where it raises an error, the codebook too. -/
def Obligations.FrameOfBuild : Prop :=
  ∀ s t : State, exec .build s = .next t →
    (t.stat = .ok → t = { s with cb := t.cb, cbValid := true, res := 0, stat := .ok }) ∧
    (t.stat ≠ .ok → t = { s with res := 0, stat := t.stat, fault := true, fcode := t.fcode })

/-! ## Invariants and the whole machine -/

/-- The invariant holds right after reset (R25, R32, R161). -/
def Obligations.ResetSatisfiesTheInvariant : Prop := BlockInv State.reset

/-- R25 (the codebook), R32 (`FCODE` nonzero exactly with `FAULT`) and the equalities of R161 modulo 2^32: every step
keeps them, from every state that has them. -/
def Obligations.EveryStepKeepsTheInvariant : Prop :=
  ∀ s t : State, BlockInv s → step s = .next t → BlockInv t

/-- R25, R35: what `CB` holds while it is not built cannot be observed. Two blocks that differ in it alone show the same
ports after any number of steps under the same inputs, and still differ in it at most. -/
def Obligations.UnbuiltCodebookIsUnobservable : Prop :=
  ∀ (n : Nat) (s t : State), SameButUnbuiltCodebook s t →
    ∃ u v : State, Sys2Proof.core.run n s = .next u ∧ Sys2Proof.core.run n t = .next v ∧
      SameButUnbuiltCodebook u v ∧ u.response = v.response
end

