-- ==== Sys2Proof/Laws/State.lean ====
section
/-! SUPPORT. What each named operation of Machine/Ops.lean leaves in each field of State: one lemma for each field and operation, and the two counter reads. -/

namespace Sys2Proof.Machine

@[simp] theorem State.buildCodebook_cb (s : State) : (s.buildCodebook).cb = codebook := rfl
@[simp] theorem State.buildCodebook_cbValid (s : State) : (s.buildCodebook).cbValid = true := rfl
@[simp] theorem State.buildCodebook_cnt (s : State) : (s.buildCodebook).cnt = s.cnt := rfl
@[simp] theorem State.buildCodebook_dh (s : State) : (s.buildCodebook).dh = s.dh := rfl
@[simp] theorem State.buildCodebook_res (s : State) : (s.buildCodebook).res = s.res := rfl
@[simp] theorem State.buildCodebook_stat (s : State) : (s.buildCodebook).stat = s.stat := rfl
@[simp] theorem State.buildCodebook_fault (s : State) : (s.buildCodebook).fault = s.fault := rfl
@[simp] theorem State.buildCodebook_fcode (s : State) : (s.buildCodebook).fcode = s.fcode := rfl
@[simp] theorem State.buildCodebook_rspValid (s : State) : (s.buildCodebook).rspValid = s.rspValid := rfl
@[simp] theorem State.buildCodebook_inputs (s : State) : (s.buildCodebook).inputs = s.inputs := rfl

@[simp] theorem State.countClass_cb (s : State) (k : BitVec 2) : (s.countClass k).cb = s.cb := rfl
@[simp] theorem State.countClass_cbValid (s : State) (k : BitVec 2) : (s.countClass k).cbValid = s.cbValid := rfl
@[simp] theorem State.countClass_cnt (s : State) (k : BitVec 2) : (s.countClass k).cnt = s.cnt.set k.toNat (s.cntAt k + 1) k.isLt := rfl
@[simp] theorem State.countClass_dh (s : State) (k : BitVec 2) : (s.countClass k).dh = s.dh := rfl
@[simp] theorem State.countClass_res (s : State) (k : BitVec 2) : (s.countClass k).res = s.res := rfl
@[simp] theorem State.countClass_stat (s : State) (k : BitVec 2) : (s.countClass k).stat = s.stat := rfl
@[simp] theorem State.countClass_fault (s : State) (k : BitVec 2) : (s.countClass k).fault = s.fault := rfl
@[simp] theorem State.countClass_fcode (s : State) (k : BitVec 2) : (s.countClass k).fcode = s.fcode := rfl
@[simp] theorem State.countClass_rspValid (s : State) (k : BitVec 2) : (s.countClass k).rspValid = s.rspValid := rfl
@[simp] theorem State.countClass_inputs (s : State) (k : BitVec 2) : (s.countClass k).inputs = s.inputs := rfl

@[simp] theorem State.countDistance_cb (s : State) (d : Distance) : (s.countDistance d).cb = s.cb := rfl
@[simp] theorem State.countDistance_cbValid (s : State) (d : Distance) : (s.countDistance d).cbValid = s.cbValid := rfl
@[simp] theorem State.countDistance_cnt (s : State) (d : Distance) : (s.countDistance d).cnt = s.cnt := rfl
@[simp] theorem State.countDistance_dh (s : State) (d : Distance) : (s.countDistance d).dh = s.dh.set d.toNat (s.dhAt d + 1) d.isLt := rfl
@[simp] theorem State.countDistance_res (s : State) (d : Distance) : (s.countDistance d).res = s.res := rfl
@[simp] theorem State.countDistance_stat (s : State) (d : Distance) : (s.countDistance d).stat = s.stat := rfl
@[simp] theorem State.countDistance_fault (s : State) (d : Distance) : (s.countDistance d).fault = s.fault := rfl
@[simp] theorem State.countDistance_fcode (s : State) (d : Distance) : (s.countDistance d).fcode = s.fcode := rfl
@[simp] theorem State.countDistance_rspValid (s : State) (d : Distance) : (s.countDistance d).rspValid = s.rspValid := rfl
@[simp] theorem State.countDistance_inputs (s : State) (d : Distance) : (s.countDistance d).inputs = s.inputs := rfl

@[simp] theorem State.clearCounters_cb (s : State) : (s.clearCounters).cb = s.cb := rfl
@[simp] theorem State.clearCounters_cbValid (s : State) : (s.clearCounters).cbValid = s.cbValid := rfl
@[simp] theorem State.clearCounters_cnt (s : State) : (s.clearCounters).cnt = Vector.replicate 4 0 := rfl
@[simp] theorem State.clearCounters_dh (s : State) : (s.clearCounters).dh = Vector.replicate 8 0 := rfl
@[simp] theorem State.clearCounters_res (s : State) : (s.clearCounters).res = s.res := rfl
@[simp] theorem State.clearCounters_stat (s : State) : (s.clearCounters).stat = s.stat := rfl
@[simp] theorem State.clearCounters_fault (s : State) : (s.clearCounters).fault = s.fault := rfl
@[simp] theorem State.clearCounters_fcode (s : State) : (s.clearCounters).fcode = s.fcode := rfl
@[simp] theorem State.clearCounters_rspValid (s : State) : (s.clearCounters).rspValid = s.rspValid := rfl
@[simp] theorem State.clearCounters_inputs (s : State) : (s.clearCounters).inputs = s.inputs := rfl

@[simp] theorem State.complete_cb (s : State) (r : Word32) : (s.complete r).cb = s.cb := rfl
@[simp] theorem State.complete_cbValid (s : State) (r : Word32) : (s.complete r).cbValid = s.cbValid := rfl
@[simp] theorem State.complete_cnt (s : State) (r : Word32) : (s.complete r).cnt = s.cnt := rfl
@[simp] theorem State.complete_dh (s : State) (r : Word32) : (s.complete r).dh = s.dh := rfl
@[simp] theorem State.complete_res (s : State) (r : Word32) : (s.complete r).res = r := rfl
@[simp] theorem State.complete_stat (s : State) (r : Word32) : (s.complete r).stat = .ok := rfl
@[simp] theorem State.complete_fault (s : State) (r : Word32) : (s.complete r).fault = s.fault := rfl
@[simp] theorem State.complete_fcode (s : State) (r : Word32) : (s.complete r).fcode = s.fcode := rfl
@[simp] theorem State.complete_rspValid (s : State) (r : Word32) : (s.complete r).rspValid = s.rspValid := rfl
@[simp] theorem State.complete_inputs (s : State) (r : Word32) : (s.complete r).inputs = s.inputs := rfl

@[simp] theorem State.raiseError_cb (s : State) (e : ErrorCode) : (s.raiseError e).cb = s.cb := rfl
@[simp] theorem State.raiseError_cbValid (s : State) (e : ErrorCode) : (s.raiseError e).cbValid = s.cbValid := rfl
@[simp] theorem State.raiseError_cnt (s : State) (e : ErrorCode) : (s.raiseError e).cnt = s.cnt := rfl
@[simp] theorem State.raiseError_dh (s : State) (e : ErrorCode) : (s.raiseError e).dh = s.dh := rfl
@[simp] theorem State.raiseError_res (s : State) (e : ErrorCode) : (s.raiseError e).res = 0 := rfl
@[simp] theorem State.raiseError_stat (s : State) (e : ErrorCode) : (s.raiseError e).stat = e.status := rfl
@[simp] theorem State.raiseError_fault (s : State) (e : ErrorCode) : (s.raiseError e).fault = true := rfl
@[simp] theorem State.raiseError_fcode (s : State) (e : ErrorCode) : (s.raiseError e).fcode = if s.fault then s.fcode else e.status := rfl
@[simp] theorem State.raiseError_rspValid (s : State) (e : ErrorCode) : (s.raiseError e).rspValid = s.rspValid := rfl
@[simp] theorem State.raiseError_inputs (s : State) (e : ErrorCode) : (s.raiseError e).inputs = s.inputs := rfl

@[simp] theorem State.resetEdge_cb (s : State) : (s.resetEdge).cb = State.reset.cb := rfl
@[simp] theorem State.resetEdge_cbValid (s : State) : (s.resetEdge).cbValid = State.reset.cbValid := rfl
@[simp] theorem State.resetEdge_cnt (s : State) : (s.resetEdge).cnt = State.reset.cnt := rfl
@[simp] theorem State.resetEdge_dh (s : State) : (s.resetEdge).dh = State.reset.dh := rfl
@[simp] theorem State.resetEdge_res (s : State) : (s.resetEdge).res = State.reset.res := rfl
@[simp] theorem State.resetEdge_stat (s : State) : (s.resetEdge).stat = State.reset.stat := rfl
@[simp] theorem State.resetEdge_fault (s : State) : (s.resetEdge).fault = State.reset.fault := rfl
@[simp] theorem State.resetEdge_fcode (s : State) : (s.resetEdge).fcode = State.reset.fcode := rfl
@[simp] theorem State.resetEdge_rspValid (s : State) : (s.resetEdge).rspValid = State.reset.rspValid := rfl
@[simp] theorem State.resetEdge_inputs (s : State) : (s.resetEdge).inputs = s.inputs := rfl

@[simp] theorem State.afterSampling_cb (s : State) : (s.afterSampling).cb = s.cb := rfl
@[simp] theorem State.afterSampling_cbValid (s : State) : (s.afterSampling).cbValid = s.cbValid := rfl
@[simp] theorem State.afterSampling_cnt (s : State) : (s.afterSampling).cnt = s.cnt := rfl
@[simp] theorem State.afterSampling_dh (s : State) : (s.afterSampling).dh = s.dh := rfl
@[simp] theorem State.afterSampling_res (s : State) : (s.afterSampling).res = s.res := rfl
@[simp] theorem State.afterSampling_stat (s : State) : (s.afterSampling).stat = s.stat := rfl
@[simp] theorem State.afterSampling_fault (s : State) : (s.afterSampling).fault = s.fault := rfl
@[simp] theorem State.afterSampling_fcode (s : State) : (s.afterSampling).fcode = s.fcode := rfl
@[simp] theorem State.afterSampling_rspValid (s : State) : (s.afterSampling).rspValid = s.rspValid := rfl
@[simp] theorem State.afterSampling_inputs (s : State) : (s.afterSampling).inputs = s.inputs.tail := rfl

/-- A counter reads from `cnt` alone, so an operation that keeps `cnt` keeps every class counter. -/
theorem State.cntAt_congr (s t : State) (h : t.cnt = s.cnt) (k : BitVec 2) : t.cntAt k = s.cntAt k := by
  simp [State.cntAt, h]

/-- The same of the distance histogram. -/
theorem State.dhAt_congr (s t : State) (h : t.dh = s.dh) (d : Distance) : t.dhAt d = s.dhAt d := by
  simp [State.dhAt, h]

end Sys2Proof.Machine
end

