-- ==== Sys2Proof/Laws/Ops.lean ====
section
/-! SUPPORT. Once for each shared operation, all it can do: counting and clearing, the order of the checks, raising an error, and the codebook. -/

namespace Sys2Proof.Machine

/-- A concatenation as a number. -/
theorem toNat_append_eq (m n : Nat) (x : BitVec m) (y : BitVec n) :
    (x ++ y).toNat = x.toNat * 2 ^ n + y.toNat := by
  rw [BitVec.toNat_append, ← Nat.shiftLeft_add_eq_or_of_lt y.isLt, Nat.shiftLeft_eq]

/-- Counting a class adds one to that class counter and to no other (R160). -/
theorem State.cntAt_countClass (s : State) (k j : BitVec 2) :
    (s.countClass k).cntAt j = if j = k then s.cntAt j + 1 else s.cntAt j := by
  by_cases h : j = k
  · subst h; simp [State.cntAt]
  · have : k.toNat ≠ j.toNat := fun e => h (BitVec.eq_of_toNat_eq e.symm)
    simp [State.cntAt, h, Vector.getElem_set_ne _ _ this]

/-- Counting a distance adds one to that histogram counter and to no other (R160). -/
theorem State.dhAt_countDistance (s : State) (d j : Distance) :
    (s.countDistance d).dhAt j = if j = d then s.dhAt j + 1 else s.dhAt j := by
  by_cases h : j = d
  · subst h; simp [State.dhAt]
  · have : d.toNat ≠ j.toNat := fun e => h (BitVec.eq_of_toNat_eq e.symm)
    simp [State.dhAt, h, Vector.getElem_set_ne _ _ this]

@[simp] theorem State.dhAt_countClass (s : State) (k : BitVec 2) (d : Distance) :
    (s.countClass k).dhAt d = s.dhAt d := rfl

@[simp] theorem State.cntAt_countDistance (s : State) (d : Distance) (k : BitVec 2) :
    (s.countDistance d).cntAt k = s.cntAt k := rfl

@[simp] theorem State.cntAt_clearCounters (s : State) (k : BitVec 2) : s.clearCounters.cntAt k = 0 := by
  simp [State.cntAt]

@[simp] theorem State.dhAt_clearCounters (s : State) (d : Distance) : s.clearCounters.dhAt d = 0 := by
  simp [State.dhAt]

@[simp] theorem State.cntAt_complete (s : State) (r : Word32) (k : BitVec 2) :
    (s.complete r).cntAt k = s.cntAt k := rfl

@[simp] theorem State.dhAt_complete (s : State) (r : Word32) (d : Distance) :
    (s.complete r).dhAt d = s.dhAt d := rfl

@[simp] theorem State.cntAt_raiseError (s : State) (e : ErrorCode) (k : BitVec 2) :
    (s.raiseError e).cntAt k = s.cntAt k := rfl

@[simp] theorem State.dhAt_raiseError (s : State) (e : ErrorCode) (d : Distance) :
    (s.raiseError e).dhAt d = s.dhAt d := rfl

@[simp] theorem State.cntAt_buildCodebook (s : State) (k : BitVec 2) :
    s.buildCodebook.cntAt k = s.cntAt k := rfl

@[simp] theorem State.dhAt_buildCodebook (s : State) (d : Distance) :
    s.buildCodebook.dhAt d = s.dhAt d := rfl

/-- A message or index is in range exactly when it is 0..15 (R62). -/
theorem indexInRange_iff (a : Word) : indexInRange a = true ↔ a.toNat ≤ 15 := by
  simp [indexInRange, Config.codewordCount]; omega

/-- A class selector is in range exactly when it is 0..3 (R62). -/
theorem classInRange_iff (a : Word) : classInRange a = true ↔ a.toNat ≤ 3 := by
  simp [classInRange, Config.classCount]; omega

/-- A distance selector is in range exactly when it is 0..7 (R62). -/
theorem distanceInRange_iff (a : Word) : distanceInRange a = true ↔ a.toNat ≤ 7 := by
  simp [distanceInRange, Config.distanceCount]; omega

/-- An in-range operand names the index it spells. -/
theorem indexOf_toNat (a : Word) (h : a.toNat ≤ 15) : (indexOf a).toNat = a.toNat := by
  simp [indexOf, BitVec.extractLsb'_toNat]; omega

/-- An in-range operand names the class counter it spells. -/
theorem classOf_toNat (a : Word) (h : a.toNat ≤ 3) : (classOf a).toNat = a.toNat := by
  simp [classOf, BitVec.extractLsb'_toNat]; omega

/-- An in-range operand names the histogram counter it spells. -/
theorem distanceOf_toNat (a : Word) (h : a.toNat ≤ 7) : (distanceOf a).toNat = a.toNat := by
  simp [distanceOf, BitVec.extractLsb'_toNat]; omega

/-- The result of DEC as a number: its fields do not overlap (R66). -/
theorem decodeResult_eq (c : Word) (ci : Index) (dm : Distance) :
    decodeResult c ci dm = BitVec.ofNat 32 (dm.toNat * 2 ^ 16 + ci.toNat * 2 ^ 8 + c.toNat) := by
  apply BitVec.eq_of_toNat_eq
  have h1 := c.isLt
  have h2 := ci.isLt
  have h3 := dm.isLt
  simp only [decodeResult, BitVec.toNat_setWidth, toNat_append_eq, BitVec.toNat_ofNat]
  omega

/-- The result of CLS and CLSACC as a number: its fields do not overlap (R66). -/
theorem classifyResult_eq (k : BitVec 2) (d : Distance) (c : Word) (ci : Index) :
    classifyResult k d c ci =
      BitVec.ofNat 32 (ci.toNat * 2 ^ 24 + c.toNat * 2 ^ 16 + d.toNat * 2 ^ 8 + k.toNat) := by
  apply BitVec.eq_of_toNat_eq
  have h1 := c.isLt
  have h2 := ci.isLt
  have h3 := d.isLt
  have h4 := k.isLt
  simp only [classifyResult, BitVec.toNat_setWidth, toNat_append_eq, BitVec.toNat_ofNat]
  omega

@[simp] theorem checked_true (s t : State) : checked true true s t = t := rfl

@[simp] theorem checked_invalidInput (p : Bool) (s t : State) :
    checked false p s t = s.raiseError .invalidInput := rfl

@[simp] theorem checked_precondition (s t : State) :
    checked true false s t = s.raiseError .precondition := rfl

/-- The checks of R65 have three results, and each says which check it comes from. -/
theorem checked_cases (r p : Bool) (s t : State) :
    (r = false ∧ checked r p s t = s.raiseError .invalidInput) ∨
    (r = true ∧ p = false ∧ checked r p s t = s.raiseError .precondition) ∨
    (r = true ∧ p = true ∧ checked r p s t = t) := by
  cases r <;> cases p <;> simp

/-- Every error code is nonzero (R32). -/
@[simp] theorem ErrorCode.status_ne_ok (e : ErrorCode) : e.status ≠ .ok := by
  cases e <;> simp [ErrorCode.status]

/-- A status code is 0 for OK alone (R200). -/
@[simp] theorem Status.code_eq_zero (c : Status) : c.code = 0#2 ↔ c = .ok := by
  cases c <;> simp [Status.code]

/-- Entry `i` of the codebook BUILD writes (R23). -/
@[simp] theorem cbAt_codebook (i : Index) : cbAt codebook i = codeword i := by
  simp [cbAt, codebook]

/-- Reading a codebook entry by its index is reading the vector. -/
theorem cb_eq_of_cbAt (c d : Vector Word 16) (h : ∀ i : Index, cbAt c i = cbAt d i) : c = d := by
  ext i hi
  have := h (BitVec.ofNat 4 i)
  simp [cbAt, Nat.mod_eq_of_lt hi] at this
  simp [this]

/-- While the invariant of R25 holds, a built codebook is the one table of R101. -/
theorem CodebookInv.cb_eq {s : State} (h : CodebookInv s) (hv : s.cbValid = true) : s.cb = codebook :=
  cb_eq_of_cbAt _ _ fun i => by rw [h hv i, cbAt_codebook]

end Sys2Proof.Machine
end

