-- ==== Sys2Proof/Laws/Code.lean ====
section
/-! SUPPORT. How the codebook enters a command while R25 holds: every use of `CB` reads the one table of R101. -/

namespace Sys2Proof.Machine

/-- The decoder of a built codebook searches the table of R101. -/
theorem CodebookInv.nearest_eq {s : State} (h : CodebookInv s) (hv : s.cbValid = true) (r : Word) :
    nearest s.cb r = nearest codebook r := by rw [h.cb_eq hv]

/-- The classifier of a built codebook compares with the table of R101. -/
theorem CodebookInv.trial_eq {s : State} (h : CodebookInv s) (hv : s.cbValid = true) (a b : Word) :
    s.trial a b = classify codebook (codeword (indexOf a)) b := by
  rw [State.trial, h.cb_eq hv, cbAt_codebook]

/-- BUILD makes R25 hold. -/
theorem codebookInv_buildCodebook (s : State) : CodebookInv s.buildCodebook := fun _ i => cbAt_codebook i

end Sys2Proof.Machine
end

