-- ==== Sys2Proof/Laws/Decode.lean ====
section
/-! SUPPORT. The fields of a built command word (30_encoding.md R61), and which row a word selects by its fields. -/

namespace Sys2Proof

@[simp] theorem fieldOp_commandWord (op : BitVec 4) (a b : Word) : fieldOp (commandWord op a b) = op := by
  ext i hi
  simp [fieldOp, commandWord]
  interval_cases i <;> simp

@[simp] theorem fieldRsv1_commandWord (op : BitVec 4) (a b : Word) : fieldRsv1 (commandWord op a b) = 0 := by
  ext i hi
  simp [fieldRsv1, commandWord]
  interval_cases i <;> simp

@[simp] theorem fieldA_commandWord (op : BitVec 4) (a b : Word) : fieldA (commandWord op a b) = a := by
  ext i hi
  simp [fieldA, commandWord]
  interval_cases i <;> simp

@[simp] theorem fieldRsv0_commandWord (op : BitVec 4) (a b : Word) : fieldRsv0 (commandWord op a b) = 0 := by
  ext i hi
  simp [fieldRsv0, commandWord]
  interval_cases i
  simp

@[simp] theorem fieldB_commandWord (op : BitVec 4) (a b : Word) : fieldB (commandWord op a b) = b := by
  ext i hi
  simp [fieldB, commandWord]
  interval_cases i <;> simp

/-- A word is the number its five fields spell (R61). -/
theorem toNat_of_fields (w : Cmd) :
    w.toNat = (fieldOp w).toNat * 2 ^ 28 + (fieldRsv1 w).toNat * 2 ^ 15 + (fieldA w).toNat * 2 ^ 8 +
      (fieldRsv0 w).toNat * 2 ^ 7 + (fieldB w).toNat := by
  have := w.isLt
  simp only [fieldOp, fieldRsv1, fieldA, fieldRsv0, fieldB, BitVec.extractLsb'_toNat, Nat.shiftRight_eq_div_pow]
  omega

/-- The number of a built word: its parts do not overlap (R61). -/
theorem commandWord_toNat (op : BitVec 4) (a b : Word) :
    (commandWord op a b).toNat = op.toNat * 2 ^ 28 + a.toNat * 2 ^ 8 + b.toNat := by
  simpa using toNat_of_fields (commandWord op a b)

/-- A word is the built word exactly when its fields are the parts and its reserved fields are 0 (R61). -/
theorem eq_commandWord_iff (w : Cmd) (op : BitVec 4) (a b : Word) :
    w = commandWord op a b ↔
      fieldOp w = op ∧ fieldRsv1 w = 0 ∧ fieldA w = a ∧ fieldRsv0 w = 0 ∧ fieldB w = b := by
  constructor
  · rintro rfl; simp
  · rintro ⟨rfl, h1, rfl, h0, rfl⟩
    apply BitVec.eq_of_toNat_eq
    rw [toNat_of_fields w, commandWord_toNat, h1, h0]
    simp

@[simp] theorem fieldOp_and (w m : Cmd) : fieldOp (w &&& m) = fieldOp w &&& fieldOp m := by
  simp only [fieldOp, BitVec.extractLsb'_and]

@[simp] theorem fieldRsv1_and (w m : Cmd) : fieldRsv1 (w &&& m) = fieldRsv1 w &&& fieldRsv1 m := by
  simp only [fieldRsv1, BitVec.extractLsb'_and]

@[simp] theorem fieldA_and (w m : Cmd) : fieldA (w &&& m) = fieldA w &&& fieldA m := by
  simp only [fieldA, BitVec.extractLsb'_and]

@[simp] theorem fieldRsv0_and (w m : Cmd) : fieldRsv0 (w &&& m) = fieldRsv0 w &&& fieldRsv0 m := by
  simp only [fieldRsv0, BitVec.extractLsb'_and]

@[simp] theorem fieldB_and (w m : Cmd) : fieldB (w &&& m) = fieldB w &&& fieldB m := by
  simp only [fieldB, BitVec.extractLsb'_and]

/-- The match of a row is the word of its opcode with both operands 0 (R63, R64). -/
theorem rows_eq : rows =
  [ ⟨commandWord 1#4 0#7 0#7, 0xFFFFFFFF#32, fun _ _ => .build⟩,
    ⟨commandWord 2#4 0#7 0#7, 0xFFFF80FF#32, fun a _ => .enc a⟩,
    ⟨commandWord 3#4 0#7 0#7, 0xFFFF80FF#32, fun a _ => .lookup a⟩,
    ⟨commandWord 4#4 0#7 0#7, 0xFFFF8080#32, fun a b => .dist a b⟩,
    ⟨commandWord 5#4 0#7 0#7, 0xFFFFFF80#32, fun _ b => .dec b⟩,
    ⟨commandWord 6#4 0#7 0#7, 0xFFFF8080#32, fun a b => .cls a b⟩,
    ⟨commandWord 7#4 0#7 0#7, 0xFFFF8080#32, fun a b => .clsacc a b⟩,
    ⟨commandWord 8#4 0#7 0#7, 0xFFFFFFFF#32, fun _ _ => .hclr⟩,
    ⟨commandWord 9#4 0#7 0#7, 0xFFFF80FF#32, fun a _ => .rdcls a⟩,
    ⟨commandWord 10#4 0#7 0#7, 0xFFFF80FF#32, fun a _ => .rddh a⟩,
    ⟨commandWord 11#4 0#7 0#7, 0xFFFFFFFF#32, fun _ _ => .rdstat⟩ ] := rfl

/-- A word selects a row with the mask 0xFFFFFFFF: neither operand is used (R64). -/
theorem selects_no_operand (w : Cmd) (op : BitVec 4) (f : Word → Word → Instr) :
    (Row.mk (commandWord op 0#7 0#7) 0xFFFFFFFF#32 f).selects w = true ↔
      fieldOp w = op ∧ fieldRsv1 w = 0 ∧ fieldA w = 0 ∧ fieldRsv0 w = 0 ∧ fieldB w = 0 := by
  have hm : fieldOp 0xFFFFFFFF#32 = BitVec.allOnes _ ∧ fieldRsv1 0xFFFFFFFF#32 = BitVec.allOnes _ ∧ fieldA 0xFFFFFFFF#32 = BitVec.allOnes _ ∧
      fieldRsv0 0xFFFFFFFF#32 = BitVec.allOnes _ ∧ fieldB 0xFFFFFFFF#32 = BitVec.allOnes _ := by decide
  simp only [Row.selects, beq_iff_eq, eq_commandWord_iff, fieldOp_and, fieldRsv1_and, fieldA_and, fieldRsv0_and,
    fieldB_and, hm, BitVec.and_allOnes]
  simp

/-- A word selects a row with the mask 0xFFFF80FF: A is used, B is not (R64). -/
theorem selects_operandA (w : Cmd) (op : BitVec 4) (f : Word → Word → Instr) :
    (Row.mk (commandWord op 0#7 0#7) 0xFFFF80FF#32 f).selects w = true ↔
      fieldOp w = op ∧ fieldRsv1 w = 0 ∧ fieldRsv0 w = 0 ∧ fieldB w = 0 := by
  have hm : fieldOp 0xFFFF80FF#32 = BitVec.allOnes _ ∧ fieldRsv1 0xFFFF80FF#32 = BitVec.allOnes _ ∧ fieldA 0xFFFF80FF#32 = 0#_ ∧
      fieldRsv0 0xFFFF80FF#32 = BitVec.allOnes _ ∧ fieldB 0xFFFF80FF#32 = BitVec.allOnes _ := by decide
  simp only [Row.selects, beq_iff_eq, eq_commandWord_iff, fieldOp_and, fieldRsv1_and, fieldA_and, fieldRsv0_and,
    fieldB_and, hm, BitVec.and_allOnes, BitVec.and_zero]
  simp

/-- A word selects a row with the mask 0xFFFFFF80: B is used, A is not (R64). -/
theorem selects_operandB (w : Cmd) (op : BitVec 4) (f : Word → Word → Instr) :
    (Row.mk (commandWord op 0#7 0#7) 0xFFFFFF80#32 f).selects w = true ↔
      fieldOp w = op ∧ fieldRsv1 w = 0 ∧ fieldA w = 0 ∧ fieldRsv0 w = 0 := by
  have hm : fieldOp 0xFFFFFF80#32 = BitVec.allOnes _ ∧ fieldRsv1 0xFFFFFF80#32 = BitVec.allOnes _ ∧ fieldA 0xFFFFFF80#32 = BitVec.allOnes _ ∧
      fieldRsv0 0xFFFFFF80#32 = BitVec.allOnes _ ∧ fieldB 0xFFFFFF80#32 = 0#_ := by decide
  simp only [Row.selects, beq_iff_eq, eq_commandWord_iff, fieldOp_and, fieldRsv1_and, fieldA_and, fieldRsv0_and,
    fieldB_and, hm, BitVec.and_allOnes, BitVec.and_zero]
  simp

/-- A word selects a row with the mask 0xFFFF8080: both operands are used (R64). -/
theorem selects_both_operands (w : Cmd) (op : BitVec 4) (f : Word → Word → Instr) :
    (Row.mk (commandWord op 0#7 0#7) 0xFFFF8080#32 f).selects w = true ↔
      fieldOp w = op ∧ fieldRsv1 w = 0 ∧ fieldRsv0 w = 0 := by
  have hm : fieldOp 0xFFFF8080#32 = BitVec.allOnes _ ∧ fieldRsv1 0xFFFF8080#32 = BitVec.allOnes _ ∧ fieldA 0xFFFF8080#32 = 0#_ ∧
      fieldRsv0 0xFFFF8080#32 = BitVec.allOnes _ ∧ fieldB 0xFFFF8080#32 = 0#_ := by decide
  simp only [Row.selects, beq_iff_eq, eq_commandWord_iff, fieldOp_and, fieldRsv1_and, fieldA_and, fieldRsv0_and,
    fieldB_and, hm, BitVec.and_allOnes, BitVec.and_zero]
  simp

end Sys2Proof
end

