-- ==== Sys2Proof/Laws/Exec.lean ====
section
/-! SUPPORT. What each command can do, said once: the three results of its checks; and that every command answers a next state. -/

namespace Sys2Proof.Machine

/-- The operand range check of a command (R62); true for a command without an index or selector. -/
def operandInRange : Instr → Bool
  | .build => true
  | .enc a => indexInRange a
  | .lookup a => indexInRange a
  | .dist _ _ => true
  | .dec _ => true
  | .cls a _ => indexInRange a
  | .clsacc a _ => indexInRange a
  | .hclr => true
  | .rdcls a => classInRange a
  | .rddh a => distanceInRange a
  | .rdstat => true

/-- The state precondition of a command (R202). -/
def preconditionHolds (s : State) : Instr → Bool
  | .build => !s.cbValid
  | .enc _ => true
  | .lookup _ => s.cbValid
  | .dist _ _ => true
  | .dec _ => s.cbValid
  | .cls _ _ => s.cbValid
  | .clsacc _ _ => s.cbValid
  | .hclr => true
  | .rdcls _ => true
  | .rddh _ => true
  | .rdstat => true

/-- The state a command leaves when it completes. -/
def effect (s : State) : Instr → State
  | .build => s.buildCodebook.complete 0
  | .enc a => s.complete (wordResult (codeword (indexOf a)))
  | .lookup a => s.complete (wordResult (cbAt s.cb (indexOf a)))
  | .dist a b => s.complete (distanceResult (wordDist a b))
  | .dec b => s.complete (decodeResult (nearest s.cb b).word (nearest s.cb b).index (nearest s.cb b).distance)
  | .cls a b => s.complete (s.trial a b).result
  | .clsacc a b =>
    ((s.countClass (s.trial a b).cls.code).countDistance (s.trial a b).distance).complete (s.trial a b).result
  | .hclr => s.clearCounters.complete 0
  | .rdcls a => s.complete (s.cntAt (classOf a))
  | .rddh a => s.complete (s.dhAt (distanceOf a))
  | .rdstat => s.complete s.statusView

/-- Every command is its checks and its effect, and answers a next state. -/
theorem exec_eq (i : Instr) (s : State) :
    exec i s = .next (checked (operandInRange i) (preconditionHolds s i) s (effect s i)) := by
  cases i <;> rfl

/-- What a command can do: INVALID_INPUT, PRECONDITION, or its effect. -/
theorem exec_cases {i : Instr} {s t : State} (h : exec i s = .next t) :
    (operandInRange i = false ∧ t = s.raiseError .invalidInput) ∨
    (operandInRange i = true ∧ preconditionHolds s i = false ∧ t = s.raiseError .precondition) ∨
    (operandInRange i = true ∧ preconditionHolds s i = true ∧ t = effect s i) := by
  rw [exec_eq] at h
  obtain rfl := Host.Outcome.next.inj h
  exact checked_cases _ _ _ _

/-- What performing a word can do: ILLEGAL where it spells no command, else what the command does. -/
theorem perform_eq (w : Cmd) (s : State) :
    (∃ why, decode w = .illegal why ∧ perform w s = .next (s.raiseError .illegal)) ∨
    (∃ i, decode w = .command i ∧ perform w s = exec i s) := by
  unfold perform
  cases h : decode w with
  | command i => exact .inr ⟨i, rfl, rfl⟩
  | illegal why => exact .inl ⟨why, rfl, rfl⟩

/-- The result of a command that completes is in the state's `RES`, and its status is OK. -/
theorem effect_stat (s : State) (i : Instr) : (effect s i).stat = .ok := by
  cases i <;> rfl

/-- No command touches the error record when it completes (R31, R32). -/
theorem effect_errorRecord (s : State) (i : Instr) :
    (effect s i).fault = s.fault ∧ (effect s i).fcode = s.fcode := by
  cases i <;> exact ⟨rfl, rfl⟩

/-- No command touches the ports. -/
theorem effect_ports (s : State) (i : Instr) :
    (effect s i).rspValid = s.rspValid ∧ (effect s i).inputs = s.inputs := by
  cases i <;> exact ⟨rfl, rfl⟩

end Sys2Proof.Machine
end

