-- ==== Sys2Proof/Laws/PerInstr.lean ====
section
/-! SUPPORT. Statements about every command as syntax, one lemma for each constructor of Instr (LAWS.json names the families). -/

namespace Sys2Proof.Laws

/-- The fields of the encoded word are the command's own, and its reserved fields are 0 (R61, R64). -/
def EncodedFields.Statement (i : Instr) : Prop :=
  fieldOp (encode i) = i.opcode ∧ fieldRsv1 (encode i) = 0 ∧ fieldA (encode i) = i.operandA ∧
    fieldRsv0 (encode i) = 0 ∧ fieldB (encode i) = i.operandB

theorem EncodedFields.build : EncodedFields.Statement .build := by
  simp [EncodedFields.Statement, encode]

theorem EncodedFields.enc (a : Word) : EncodedFields.Statement (.enc a) := by
  simp [EncodedFields.Statement, encode]

theorem EncodedFields.lookup (a : Word) : EncodedFields.Statement (.lookup a) := by
  simp [EncodedFields.Statement, encode]

theorem EncodedFields.dist (a b : Word) : EncodedFields.Statement (.dist a b) := by
  simp [EncodedFields.Statement, encode]

theorem EncodedFields.dec (b : Word) : EncodedFields.Statement (.dec b) := by
  simp [EncodedFields.Statement, encode]

theorem EncodedFields.cls (a b : Word) : EncodedFields.Statement (.cls a b) := by
  simp [EncodedFields.Statement, encode]

theorem EncodedFields.clsacc (a b : Word) : EncodedFields.Statement (.clsacc a b) := by
  simp [EncodedFields.Statement, encode]

theorem EncodedFields.hclr : EncodedFields.Statement .hclr := by
  simp [EncodedFields.Statement, encode]

theorem EncodedFields.rdcls (a : Word) : EncodedFields.Statement (.rdcls a) := by
  simp [EncodedFields.Statement, encode]

theorem EncodedFields.rddh (a : Word) : EncodedFields.Statement (.rddh a) := by
  simp [EncodedFields.Statement, encode]

theorem EncodedFields.rdstat : EncodedFields.Statement .rdstat := by
  simp [EncodedFields.Statement, encode]

end Sys2Proof.Laws
end

