-- ==== Sys2Proof/Laws/Step.lean ====
section
/-! SUPPORT. What one step can do: reset, idle, or the command offered. -/

namespace Sys2Proof.Machine

/-- The three kinds of edge (R72, R220). -/
theorem step_cases (s : State) :
    (s.nextInputs.rst = true ∧ step s = .next s.afterSampling.resetEdge) ∨
    (s.nextInputs.rst = false ∧ s.nextInputs.cmdValid = false ∧
      step s = .next { s.afterSampling with rspValid := false }) ∨
    (s.nextInputs.rst = false ∧ s.nextInputs.cmdValid = true ∧
      step s = perform s.nextInputs.cmd { s.afterSampling with rspValid := true }) := by
  unfold step clockEdge
  cases s.nextInputs.rst <;> cases s.nextInputs.cmdValid <;> simp

/-- Sampling takes the first of the listed inputs. -/
theorem sampling_cons (s : State) (p : PortInputs) (rest : List PortInputs) (h : s.inputs = p :: rest) :
    s.nextInputs = p ∧ s.afterSampling = { s with inputs := rest } := by
  simp [State.nextInputs, State.afterSampling, h]

/-- Sampling with nothing listed is an idle edge. -/
theorem sampling_nil (s : State) (h : s.inputs = []) :
    s.nextInputs = PortInputs.idle ∧ s.afterSampling = s := by
  cases s; simp_all [State.nextInputs, State.afterSampling]

end Sys2Proof.Machine
end

