-- ==== Sys2Proof/Tests/Slice0.lean ====
section
/-! SUPPORT. The model's own tests, on the vectors of spec/95_test_vectors.md, and for each statement with hypotheses a witness that meets them. -/

namespace Sys2Proof.Tests

open Sys2Proof.Machine

/-- The state after reset and BUILD, but for `RES` and `STAT`, which are as at reset. -/
def built : State := { State.reset with cb := codebook, cbValid := true }

/-- A state with an error recorded: the first one was PRECONDITION. -/
def faulted : State := { State.reset with fault := true, fcode := .precondition }

/-- `RES` and the status code a word leaves. -/
def response (w : Cmd) (s : State) : Option (Word32 × BitVec 2) :=
  (nextOf (perform w s)).map fun t => (t.res, t.stat.code)

/-! ## WellFormed: an ill-formed term for each check, and its boundary -/

theorem test_wellFormed_refuses_enc_16 : (Instr.enc 16).wellFormed = false := by decide
theorem test_wellFormed_refuses_lookup_16 : (Instr.lookup 16).wellFormed = false := by decide
theorem test_wellFormed_refuses_cls_16 : (Instr.cls 16 0).wellFormed = false := by decide
theorem test_wellFormed_refuses_clsacc_127 : (Instr.clsacc 127 0).wellFormed = false := by decide
theorem test_wellFormed_refuses_rdcls_4 : (Instr.rdcls 4).wellFormed = false := by decide
theorem test_wellFormed_refuses_rddh_8 : (Instr.rddh 8).wellFormed = false := by decide
theorem test_wellFormed_accepts_the_boundaries :
    [Instr.enc 15, .lookup 15, .cls 15 0x7F, .clsacc 15 0x7F, .rdcls 3, .rddh 7, .dist 0x7F 0x7F].all
      Instr.wellFormed = true := by decide

/-! ## Decode: words written out from the encodings of R64, and the refused words of 95_test_vectors.md 2.1 -/

theorem test_decode_build : decode 0b00010000000000000000000000000000#32 = .command .build := by decide
theorem test_decode_enc : decode 0b00100000000000000000101100000000#32 = .command (.enc 11) := by decide
theorem test_decode_lookup : decode 0b00110000000000000111111100000000#32 = .command (.lookup 127) := by decide
theorem test_decode_dist : decode 0b01000000000000000101101001001010#32 = .command (.dist 0x5A 0x4A) := by decide
theorem test_decode_dec : decode 0b01010000000000000000000001001010#32 = .command (.dec 0x4A) := by decide
theorem test_decode_cls : decode 0b01100000000000000000101101001010#32 = .command (.cls 11 0x4A) := by decide
theorem test_decode_clsacc : decode 0b01110000000000000000101101001010#32 = .command (.clsacc 11 0x4A) := by decide
theorem test_decode_hclr : decode 0b10000000000000000000000000000000#32 = .command .hclr := by decide
theorem test_decode_rdcls : decode 0b10010000000000000000001100000000#32 = .command (.rdcls 3) := by decide
theorem test_decode_rddh : decode 0b10100000000000000000011100000000#32 = .command (.rddh 7) := by decide
theorem test_decode_rdstat : decode 0b10110000000000000000000000000000#32 = .command .rdstat := by decide

/-- The words of 95_test_vectors.md 2.1 that raise ILLEGAL, all refused. -/
theorem test_decode_refuses_the_illegal_vectors :
    [0x00000000#32, 0xC0000000#32, 0xF0000000#32, 0x10000001#32, 0x10008000#32, 0x28000000#32, 0x20008000#32,
      0x40000080#32, 0x40008000#32, 0x20000F01#32, 0x50000100#32, 0x500000FF#32, 0x70000080#32, 0x80000001#32,
      0x80000100#32, 0x90000001#32, 0xA0000701#32, 0xB0000001#32, 0xB0008000#32, 0xB0000100#32].all
      (fun w => (decodeTableWord 32 w.toNat).isNone) = true := by decide

/-- 30_encoding.md R69's example, read as the opcode table numbers its bits. -/
theorem test_decodeTableWord_dist : decodeTableWord 32 0x40005A4A = some (.dist 0x5A 0x4A) := by decide
theorem test_encode_cls : encode (.cls 11 0x4A) = 0x60000B4A#32 := by decide

/-! ## One command each (95_test_vectors.md 2.2 to 2.7) -/

theorem test_build_writes_the_table_of_R101 : (nextOf (perform 0x10000000 State.reset)).map (fun t => (t.cb.toList, t.cbValid)) =
    some ([0x00, 0x0F, 0x16, 0x19, 0x25, 0x2A, 0x33, 0x3C, 0x43, 0x4C, 0x55, 0x5A, 0x66, 0x69, 0x70, 0x7F], true) := by
  decide +kernel
theorem test_build_twice_is_precondition : response 0x10000000 built = some (0, 2) := by decide
theorem test_enc_11_from_reset : response 0x20000B00 State.reset = some (0x5A, 0) := by decide
theorem test_enc_16_is_invalid : response 0x20001000 State.reset = some (0, 1) := by decide
theorem test_lookup_11 : response 0x30000B00 built = some (0x5A, 0) := by decide
theorem test_lookup_20_before_build_is_invalid : response 0x30001400 State.reset = some (0, 1) := by decide
theorem test_dist_of_the_worked_example : response 0x40005A4A State.reset = some (1, 0) := by decide
theorem test_dist_of_complements : response 0x4000552A State.reset = some (7, 0) := by decide
theorem test_dec_4A : response 0x5000004A built = some (0x00010B5A, 0) := by decide +kernel
theorem test_dec_3E : response 0x5000003E built = some (0x0001073C, 0) := by decide +kernel
theorem test_cls_11_4A : response 0x60000B4A built = some (0x0B5A0101, 0) := by decide +kernel
theorem test_cls_0_16_is_undetected : response 0x60000016 built = some (0x02160302, 0) := by decide +kernel

/-- The wrap vector of 95_test_vectors.md 2.6: CLSACC 0, 0x03 with `CNT[3]` and `DH[2]` at 0xFFFFFFFF. -/
theorem test_clsacc_wraps : (nextOf (perform 0x70000003
      { built with cnt := #v[5, 6, 7, 0xFFFFFFFF], dh := #v[0, 1, 0xFFFFFFFF, 3, 4, 5, 6, 7] })).map
      (fun t => (t.res, t.cnt.toList, t.dh.toList, t.fault)) =
    some (0x08430203, [5, 6, 7, 0], [0, 1, 0, 3, 4, 5, 6, 7], false) := by decide +kernel
theorem test_clsacc_before_build_counts_nothing :
    (nextOf (perform 0x70000000 State.reset)).map (fun t => (t.stat, t.cnt.toList, t.fcode)) =
      some (.precondition, [0, 0, 0, 0], .precondition) := by decide
theorem test_hclr_clears : (nextOf (perform 0x80000000 { built with cnt := #v[1, 2, 3, 4], dh := #v[1, 2, 3, 4, 5, 6, 7, 8] })).map
      (fun t => (t.cnt.toList, t.dh.toList, t.cbValid)) =
    some ([0, 0, 0, 0], [0, 0, 0, 0, 0, 0, 0, 0], true) := by decide
theorem test_rdcls_3 : response 0x90000300 { built with cnt := #v[1, 2, 3, 4] } = some (4, 0) := by decide
theorem test_rdcls_4_is_invalid : response 0x90000400 built = some (0, 1) := by decide
theorem test_rddh_7 : response 0xA0000700 { built with dh := #v[1, 2, 3, 4, 5, 6, 7, 8] } = some (8, 0) := by decide
theorem test_rddh_8_is_invalid : response 0xA0000800 built = some (0, 1) := by decide
theorem test_rdstat_after_build : response 0xB0000000 built = some (1, 0) := by decide
theorem test_rdstat_after_precondition : response 0xB0000000 faulted = some (0x22, 0) := by decide

/-! ## A step -/

/-- The very next step performs the placed word (R72): ENC 11 right after reset. -/
theorem test_step_after_withFetchWord :
    (nextOf (step (State.reset.withFetchWord 32 0x20000B00))).map (fun t => (t.res, t.rspValid, t.inputs)) =
      some (0x5A, true, []) := by decide
/-- Reset wins over a command at the same edge (R220). -/
theorem test_reset_wins : (nextOf (step { faulted with inputs := [⟨true, true, 0x10000000⟩] })).map
    (fun t => (t.cbValid, t.fault, t.fcode, t.rspValid)) = some (false, false, .ok, false) := by decide
/-- The sticky record keeps the first code (95_test_vectors.md 2.1: ILLEGAL, then ENC 16). -/
theorem test_first_code_stays : (nextOf (perform 0x20001000 { State.reset with fault := true, fcode := .illegal })).map
    (fun t => (t.stat, t.fcode)) = some (.invalidInput, .illegal) := by decide

/-! ## Assembler (R69, R10) -/

theorem test_assemble_dist : (Asm.assemble "DIST \"1011010\", \"1001010\" ; one bit".toList).map encode = some 0x40005A4A := by
  decide
theorem test_assemble_cls : (Asm.assemble "CLS 11, 0x4A".toList).map encode = some 0x60000B4A := by decide
theorem test_assemble_refuses_enc_16 : Asm.assemble "ENC 16".toList = none := by decide
theorem test_bit_string : Asm.wordOfBits "1011010".toList = some 0x5A := by decide

/-! ## Witnesses: a concrete case of the hypotheses of each statement, at the boundary where there is one -/

theorem witness_EncodeOfDecode : decode 0x30007F00#32 = .command (.lookup 127) := by decide
theorem witness_AssemblerWritesOnlyOperandsInRange : Asm.assemble "RDDH 7".toList = some (.rddh 7) := by decide
theorem witness_StepRunsTheDecodedCommand :
    ∃ (s : State) (p : PortInputs) (rest : List PortInputs), s.inputs = p :: rest ∧ p.rst = false ∧ p.cmdValid = true ∧
      decode p.cmd = .command .build :=
  ⟨{ State.reset with inputs := [.offer 0x10000000] }, .offer 0x10000000, [], by decide⟩
theorem witness_StepRaisesIllegalOnOtherWords :
    ∃ (s : State) (p : PortInputs) (rest : List PortInputs), s.inputs = p :: rest ∧ p.rst = false ∧ p.cmdValid = true ∧
      decode p.cmd = .illegal .reservedOpcode :=
  ⟨{ State.reset with inputs := [.offer 0] }, .offer 0, [], by decide⟩
theorem witness_ResetEdgeGivesTheResetState :
    ∃ (s : State) (p : PortInputs) (rest : List PortInputs), s.inputs = p :: rest ∧ p.rst = true :=
  ⟨{ built with inputs := [⟨true, true, 0x80000000⟩] }, ⟨true, true, 0x80000000⟩, [], by decide⟩
theorem witness_IdleEdgeKeepsTheState :
    (∃ (s : State) (p : PortInputs) (rest : List PortInputs), s.inputs = p :: rest ∧ p.rst = false ∧ p.cmdValid = false) ∧
      ∃ s : State, s.inputs = [] :=
  ⟨⟨{ built with inputs := [.idle] }, .idle, [], by decide⟩, built, by decide⟩
theorem witness_EveryOfferedCommandGetsAResponse :
    ∃ (s : State) (p : PortInputs) (rest : List PortInputs), s.inputs = p :: rest ∧ p.rst = false ∧ p.cmdValid = true :=
  ⟨{ built with inputs := [.offer 0x70000000] }, .offer 0x70000000, [], by decide⟩
theorem witness_StepsRefineTheRunOfCommands :
    ∃ t, runCommands [0x10000000#32, 0x00000000#32] State.reset = .next t := ⟨_, rfl⟩
/-- An error of each kind, and no error, at the boundaries of the operand A. -/
theorem witness_FirstErrorIsReportedAndRecorded :
    firstError 0xC0000000 true = some .illegal ∧ firstError 0x30001000 false = some .invalidInput ∧
      firstError 0x30000F00 false = some .precondition ∧ firstError 0x30000F00 true = none := by decide
theorem witness_OperandsOutOfRangeRaiseInvalidInput :
    16 ≤ (16 : Word).toNat ∧ 4 ≤ (4 : Word).toNat ∧ 8 ≤ (8 : Word).toNat := by decide
theorem witness_CodebookStateRaisesPrecondition :
    State.reset.cbValid = false ∧ (15 : Word).toNat ≤ 15 ∧ built.cbValid = true := by decide
/-- A command that fails, one that completes after an error, and a reset edge. -/
theorem witness_FaultIsStickyUntilReset :
    (∃ t, perform 0 State.reset = .next t ∧ t.stat ≠ .ok) ∧
    (∃ t, perform 0x80000000 faulted = .next t ∧ t.stat = .ok ∧ faulted.fault = true) ∧
    ∃ s t, step s = .next t ∧ s.fault = true ∧ t.fault = false ∧ s.nextInputs.rst = true :=
  ⟨⟨_, rfl, by decide⟩, ⟨_, rfl, by decide, by decide⟩,
    { faulted with inputs := [⟨true, false, 0⟩] }, _, rfl, by decide, by decide, by decide⟩
/-- The first error, a second one, and a command that completes. -/
theorem witness_FcodeKeepsTheFirstErrorCode :
    (∃ t, perform 0x30001000 State.reset = .next t ∧ t.stat ≠ .ok ∧ State.reset.fault = false) ∧
    (∃ t, perform 0x30001000 faulted = .next t ∧ t.stat ≠ .ok ∧ faulted.fault = true) ∧
    (∃ t, perform 0x80000000 faulted = .next t ∧ t.stat = .ok) ∧ FaultRecordInv faulted :=
  ⟨⟨_, rfl, by decide, by decide⟩, ⟨_, rfl, by decide, by decide⟩, ⟨_, rfl, by decide⟩, by decide⟩
theorem witness_CommandsIgnoreTheErrorRecord :
    Instr.hclr ≠ .rdstat ∧ ∃ t, exec .hclr State.reset = .next t := ⟨by decide, _, rfl⟩
theorem witness_FaultTellsWhetherAnyCommandFailed :
    NoErrorYet State.reset ∧ (∃ t, runCommands [0x80000000#32, 0x00000000#32] State.reset = .next t ∧ t.fault = true) ∧
      ∃ t, runCommands [0x80000000#32] State.reset = .next t ∧ t.fault = false :=
  ⟨by decide, ⟨_, rfl, by decide⟩, _, rfl, by decide⟩
theorem witness_BuildInitialisesTheCodebook : State.reset.cbValid = false := by decide
theorem witness_BuildWritesTheTable : (∃ t, exec .build State.reset = .next t) ∧ State.reset.cbValid = false :=
  ⟨⟨_, rfl⟩, by decide⟩
/-- BUILD changes the codebook's flag, and a reset edge changes it back. -/
theorem witness_OnlyBuildWritesTheCodebook :
    (∃ t, perform 0x10000000#32 State.reset = .next t ∧ t.cbValid ≠ State.reset.cbValid) ∧
    ∃ s t, step s = .next t ∧ s.cbValid = true ∧ t.cbValid = false :=
  ⟨⟨_, rfl, by decide⟩, { built with inputs := [⟨true, false, 0⟩] }, _, rfl, by decide, by decide⟩
theorem witness_EncIsTheParityLogic : (15 : Word).toNat ≤ 15 := by decide
theorem witness_LookupReturnsTheEntry : (15 : Word).toNat < 16 ∧ built.cbValid = true := by decide
/-- The invariant of the codebook, in a state where it is built: the hypothesis of the decoder's and classifier's
statements. -/
theorem witness_CodebookInv_built : CodebookInv built ∧ built.cbValid = true := by decide +kernel
theorem witness_LookupAgreesWithEnc : CodebookInv built ∧ built.cbValid = true ∧ (15 : Word).toNat ≤ 15 := by decide +kernel
theorem witness_CodewordsAreDistinctWithWeights : codeword 3 = codeword 3 := by decide
theorem witness_MinimumDistanceIsThree : (0 : Index) ≠ 15 := by decide
theorem witness_DecReturnsTheFirstNearestEntry : built.cbValid = true := by decide
theorem witness_DecEqualsTheSyndromeForm :
    (CodebookInv built ∧ built.cbValid = true ∧ syndrome 0x5A = 0 ∧ syndrome 0x4A ≠ 0) ∧
      CodebookInv State.reset ∧ State.reset.cbValid = false := by decide +kernel
theorem witness_SingleErrorsAreCorrected : CodebookInv built ∧ built.cbValid = true ∧ popcount7 0x40 = 1 := by
  decide +kernel
theorem witness_EveryWordIsWithinOneOfOneCodeword :
    CodebookInv built ∧ built.cbValid = true ∧ isCodeword built.cb 0x5A = true ∧ isCodeword built.cb 0x4A = false := by
  decide +kernel
/-- At the least distance, with a received word that is no codeword and with one that is. -/
theorem witness_TwoErrorsAreNeverCorrected :
    CodebookInv built ∧ built.cbValid = true ∧
      (2 ≤ (wordDist (codeword 0) 0x03).toNat ∧ isCodeword built.cb 0x03 = false) ∧
      2 ≤ (wordDist (codeword 0) 0x16).toNat ∧ isCodeword built.cb 0x16 = true := by decide +kernel
theorem witness_ExactlyOneClassConditionHolds : CodebookInv built ∧ built.cbValid = true := by decide +kernel
theorem witness_ClsReportsTheErrorPattern : CodebookInv built ∧ built.cbValid = true ∧ (15 : Word).toNat ≤ 15 := by
  decide +kernel
theorem witness_IsCodewordSearchesTheCodebook : CodebookInv built ∧ built.cbValid = true := by decide +kernel
theorem witness_ClassesByDistanceTable : CodebookInv built ∧ built.cbValid = true := by decide +kernel
theorem witness_ClassIsNotAFunctionOfDistance :
    CodebookInv built ∧ built.cbValid = true ∧ ((3 : Distance) = 3 ∨ (3 : Distance) = 4) ∧ ((4 : Distance) = 3 ∨ (4 : Distance) = 4) := by
  decide +kernel
theorem witness_ClsaccCountsItsTrial : (15 : Word).toNat < 16 ∧ built.cbValid = true := by decide
theorem witness_RdclsReturnsTheCounter : (3 : Word).toNat < 4 := by decide
theorem witness_RddhReturnsTheCounter : (7 : Word).toNat < 8 := by decide
theorem witness_OnlyClsaccAndHclrWriteCounters :
    ∃ t, perform 0x80000000#32 { built with cnt := #v[1, 0, 0, 0] } = .next t ∧ t.cnt ≠ #v[1, 0, 0, 0] :=
  ⟨_, rfl, by decide⟩
theorem witness_CounterRelationsWithoutWrap :
    CodebookInv State.reset ∧ CountersClear State.reset ∧ 0x80000000#32 ∉ [0x10000000#32, 0x70000003#32] ∧
      (∃ t, runCommands [0x10000000#32, 0x70000003#32] State.reset = .next t) ∧
      completedTrials [0x10000000#32, 0x70000003#32] State.reset = 1 :=
  ⟨by decide, by decide, by decide, ⟨_, rfl⟩, by decide +kernel⟩
/-- A reading command that completes and one that raises an error. -/
theorem witness_FrameOfTheReadingCommands :
    Instr.rdcls 3 ≠ .build ∧ Instr.rdcls 3 ≠ .hclr ∧ (∀ a b, Instr.rdcls 3 ≠ .clsacc a b) ∧
      (∃ t, exec (.rdcls 3) built = .next t ∧ t.stat = .ok) ∧ ∃ t, exec (.rdcls 4) built = .next t ∧ t.stat ≠ .ok :=
  ⟨by decide, by decide, fun _ _ => by simp, ⟨_, rfl, by decide⟩, _, rfl, by decide⟩
theorem witness_FrameOfTheCountingCommands :
    (∃ t, exec .hclr built = .next t ∧ t.stat = .ok) ∧ ∃ t, exec (.clsacc 16 0) built = .next t ∧ t.stat ≠ .ok :=
  ⟨⟨_, rfl, by decide⟩, _, rfl, by decide⟩
theorem witness_FrameOfBuild :
    (∃ t, exec .build State.reset = .next t ∧ t.stat = .ok) ∧ ∃ t, exec .build built = .next t ∧ t.stat ≠ .ok :=
  ⟨⟨_, rfl, by decide⟩, _, rfl, by decide⟩
theorem witness_EveryStepKeepsTheInvariant : BlockInv built ∧ ∃ t, step built = .next t :=
  ⟨by decide +kernel, _, rfl⟩
/-- Two blocks that really differ in the unbuilt codebook. -/
theorem witness_UnbuiltCodebookIsUnobservable :
    let s : State := { State.reset with cb := Vector.replicate 16 0 }
    let t : State := { State.reset with cb := codebook }
    SameButUnbuiltCodebook s t ∧ s ≠ t := by decide

end Sys2Proof.Tests
end

section
/-! PROOFS. The bit strings of 00_scope.md R10. The reading goes from the left, so after the characters at string
positions `0`..`k` the number read is the word without its low `n - k` bits; at `k = n` it is the word. -/

namespace Sys2Proof.Machine.Asm

/-- The character of a source bit string that shows one wire bit (R10). -/
def bitChar (b : Bool) : Char := if b then '1' else '0'

/-- The first `k` characters of the source bit string of a word of `n + 1` bits: position `j` shows wire bit `n - j`. -/
def leadingBits {n : Nat} (w : BitVec (n + 1)) (k : Nat) : List Char :=
  (List.range k).map fun j => bitChar (w.getLsbD (n - j))

theorem idxOf?_bitChar (b : Bool) : bits.idxOf? (bitChar b) = some b.toNat := by
  cases b <;> decide

theorem leadingBits_succ {n : Nat} (w : BitVec (n + 1)) (k : Nat) :
    leadingBits w (k + 1) = leadingBits w k ++ [bitChar (w.getLsbD (n - k))] := by
  simp [leadingBits, List.range_succ]

theorem numberIn_singleton (digits : List Char) (c : Char) : numberIn digits [c] = digits.idxOf? c := by
  simp [numberIn]

/-- One more character multiplies the number read by the base and adds the character's digit. -/
theorem numberIn_concat {digits text : List Char} {c : Char} {high low : Nat}
    (htext : numberIn digits text = some high) (hc : digits.idxOf? c = some low) :
    numberIn digits (text ++ [c]) = some (digits.length * high + low) := by
  have hne : text ≠ [] := by
    rintro rfl
    simp [numberIn] at htext
  simp only [numberIn, List.isEmpty_iff, hne, if_false] at htext
  simp [numberIn, hne, List.foldlM_append, htext, hc]

/-- Shifting by one place less brings in one more bit, at the low end. -/
theorem two_mul_div_add_testBit (x i : Nat) :
    2 * (x / 2 ^ (i + 1)) + (x.testBit i).toNat = x / 2 ^ i := by
  rw [Nat.toNat_testBit, Nat.pow_succ, ← Nat.div_div_eq_div_mul, Nat.div_add_mod]

theorem numberIn_leadingBits {n : Nat} (w : BitVec (n + 1)) {k : Nat} (hk : k ≤ n) :
    numberIn bits (leadingBits w (k + 1)) = some (w.toNat / 2 ^ (n - k)) := by
  induction k with
  | zero =>
    have htop : w.toNat / 2 ^ (n + 1) = 0 := Nat.div_eq_of_lt w.isLt
    have hbit := two_mul_div_add_testBit w.toNat n
    rw [htop] at hbit
    simpa [leadingBits, numberIn_singleton, idxOf?_bitChar, BitVec.getLsbD] using hbit
  | succ k ih =>
    have hread := numberIn_concat (ih (by omega)) (idxOf?_bitChar (w.getLsbD (n - (k + 1))))
    have hplace : n - k = n - (k + 1) + 1 := by omega
    have hbase : bits.length = 2 := by decide
    rw [leadingBits_succ, hread, hbase, hplace, BitVec.getLsbD, two_mul_div_add_testBit]

theorem wordOfNat_toNat (w : Word) : wordOfNat w.toNat = some w := by
  simp [wordOfNat, w.isLt]

/-- R10 for the whole string: all seven characters read back as the word. -/
theorem wordOfBits_leadingBits (w : Word) : wordOfBits (leadingBits w 7) = some w := by
  have hlength : (leadingBits w 7).length = 7 := by simp [leadingBits]
  have hnumber : numberIn bits (leadingBits w 7) = some w.toNat := by
    simpa using numberIn_leadingBits w (Nat.le_refl 6)
  rw [wordOfBits, if_pos hlength, hnumber, Option.bind_some, wordOfNat_toNat]

/-- Settles O7: the string of the statement is `leadingBits w 7`. -/
theorem bitStringsReadMostSignificantFirst : Obligations.BitStringsReadMostSignificantFirst :=
  wordOfBits_leadingBits

end Sys2Proof.Machine.Asm
end

section
/-! PROOFS. What a command, a word and a step leave: an error raised or the effect of a command that completes, where an
effect writes the codebook, the counters, or `RES` and `STAT` alone; and that a command has one word. -/

namespace Sys2Proof.Machine

/-! ## The results of a command, a word and a step -/

/-- A command either raises an error, or its checks hold and it has its effect (R65, R203). -/
theorem exec_result {i : Instr} {s t : State} (h : exec i s = .next t) :
    (∃ e, t = s.raiseError e) ∨ (preconditionHolds s i = true ∧ t = effect s i) := by
  obtain ⟨-, ht⟩ | ⟨-, -, ht⟩ | ⟨-, hp, ht⟩ := exec_cases h
  · exact .inl ⟨_, ht⟩
  · exact .inl ⟨_, ht⟩
  · exact .inr ⟨hp, ht⟩

/-- A word either raises an error, or spells a command that has its effect (R65, R203). -/
theorem perform_result {w : Cmd} {s t : State} (h : perform w s = .next t) :
    (∃ e, t = s.raiseError e) ∨
    (∃ i, decode w = .command i ∧ preconditionHolds s i = true ∧ t = effect s i) := by
  obtain ⟨_, -, hw⟩ | ⟨i, hi, hw⟩ := perform_eq w s
  · exact .inl ⟨_, Host.Outcome.next.inj (h.symm.trans hw)⟩
  · obtain he | ⟨hp, ht⟩ := exec_result (hw.symm.trans h)
    · exact .inl he
    · exact .inr ⟨i, hi, hp, ht⟩

/-- An edge resets, is idle, or performs the word offered (R72, R220). -/
theorem step_result {s t : State} (h : step s = .next t) :
    (s.nextInputs.rst = true ∧ t = s.afterSampling.resetEdge) ∨
    (s.nextInputs.rst = false ∧ t = { s.afterSampling with rspValid := false }) ∨
    (s.nextInputs.rst = false ∧
      perform s.nextInputs.cmd { s.afterSampling with rspValid := true } = .next t) := by
  obtain ⟨hr, hs⟩ | ⟨hr, -, hs⟩ | ⟨hr, -, hs⟩ := step_cases s
  · exact .inl ⟨hr, Host.Outcome.next.inj (h.symm.trans hs)⟩
  · exact .inr (.inl ⟨hr, Host.Outcome.next.inj (h.symm.trans hs)⟩)
  · exact .inr (.inr ⟨hr, hs.symm.trans h⟩)

/-- What a command that completes writes beside `RES` and `STAT`: BUILD the codebook, HCLR and CLSACC the counters, and
every other command nothing (R100, R160, R165). -/
theorem effect_cases (s : State) (i : Instr) :
    (i = .build ∧ effect s i = s.buildCodebook.complete 0) ∨
    (i = .hclr ∧ effect s i = s.clearCounters.complete 0) ∨
    (∃ a b, i = .clsacc a b ∧ effect s i =
      ((s.countClass (s.trial a b).cls.code).countDistance (s.trial a b).distance).complete (s.trial a b).result) ∨
    (∃ r, effect s i = s.complete r) := by
  cases i with
  | build => exact .inl ⟨rfl, rfl⟩
  | hclr => exact .inr (.inl ⟨rfl, rfl⟩)
  | clsacc a b => exact .inr (.inr (.inl ⟨a, b, rfl, rfl⟩))
  | enc | lookup | dist | dec | cls | rdcls | rddh | rdstat => exact .inr (.inr (.inr ⟨_, rfl⟩))

/-- The precondition of a command reads `CB_VALID` alone. -/
theorem preconditionHolds_congr {s t : State} (h : s.cbValid = t.cbValid) (i : Instr) :
    preconditionHolds s i = preconditionHolds t i := by
  cases i <;> simp [preconditionHolds, h]

/-! ## The word of a command -/

/-- A word that spells a command selects a row of the table (R64). -/
theorem exists_row_of_decode {w : Cmd} {i : Instr} (h : decode w = .command i) :
    ∃ r ∈ rows, r.selects w = true ∧ r.command (fieldA w) (fieldB w) = i := by
  unfold decode at h
  split at h
  next r hr => exact ⟨r, List.mem_of_find?_eq_some hr, by simpa using List.find?_some hr, Decoded.command.inj h⟩
  next => cases h

/-- The word that selects a row is the word of the row's command: the fields outside the mask are its operands, and the
others are as the row's pattern fixes them (R61, R64). -/
theorem encode_of_selects {r : Row} {w : Cmd} (hr : r ∈ rows) (hw : r.selects w = true) :
    encode (r.command (fieldA w) (fieldB w)) = w := by
  symm
  rw [encode, eq_commandWord_iff]
  simp only [rows_eq, List.mem_cons, List.not_mem_nil, or_false] at hr
  rcases hr with rfl | rfl | rfl | rfl | rfl | rfl | rfl | rfl | rfl | rfl | rfl <;>
    simp only [selects_no_operand, selects_operandA, selects_operandB, selects_both_operands] at hw <;>
    simp [hw, Instr.opcode, Instr.operandA, Instr.operandB]

/-- A command has one word alone (R64). -/
theorem encode_of_decode {w : Cmd} {i : Instr} (h : decode w = .command i) : encode i = w := by
  obtain ⟨r, hr, hw, rfl⟩ := exists_row_of_decode h
  exact encode_of_selects hr hw

/-- The opcode of a command stands in the high four bits of its word (R61). -/
theorem opcode_of_decode {w : Cmd} {i : Instr} (h : decode w = .command i) : w.toNat / 2 ^ 28 = i.opcode.toNat := by
  have ha := i.operandA.isLt
  have hb := i.operandB.isLt
  rw [← encode_of_decode h, encode, commandWord_toNat]
  omega

end Sys2Proof.Machine
end

section
/-! PROOFS. The state family: the error record, who writes the codebook and the counters, the frames of the commands, and
the invariant of the block (10_state.md; 43_classification.md R161). -/

namespace Sys2Proof.Machine

/-! ## The error record (R31, R32) -/

theorem perform_errorRecord {w : Cmd} {s t : State} (h : perform w s = .next t) :
    (t.stat ≠ .ok ∧ t.fault = true ∧ t.fcode = if s.fault then s.fcode else t.stat) ∨
    (t.stat = .ok ∧ t.fault = s.fault ∧ t.fcode = s.fcode) := by
  obtain ⟨e, rfl⟩ | ⟨i, -, -, rfl⟩ := perform_result h
  · exact .inl ⟨e.status_ne_ok, rfl, rfl⟩
  · exact .inr ⟨effect_stat s i, effect_errorRecord s i⟩

/-- No command clears `FAULT` (R31). -/
theorem perform_keeps_fault {w : Cmd} {s t : State} (h : perform w s = .next t) (hf : s.fault = true) :
    t.fault = true := by
  obtain ⟨-, ht, -⟩ | ⟨-, ht, -⟩ := perform_errorRecord h
  · exact ht
  · exact ht.trans hf

/-- An edge without reset does not clear `FAULT` (R31). -/
theorem step_keeps_fault {s t : State} (h : step s = .next t) (hr : s.nextInputs.rst = false)
    (hf : s.fault = true) : t.fault = true := by
  obtain ⟨hr', -⟩ | ⟨-, rfl⟩ | ⟨-, hp⟩ := step_result h
  · simp [hr] at hr'
  · exact hf
  · exact perform_keeps_fault hp hf

/-- A reset edge leaves the state after reset, but for what the host drives (R220). -/
theorem step_of_rst {s t : State} (h : step s = .next t) (hr : s.nextInputs.rst = true) :
    t = s.afterSampling.resetEdge := by
  obtain ⟨-, rfl⟩ | ⟨hr', -⟩ | ⟨hr', -⟩ := step_result h
  · rfl
  · simp [hr] at hr'
  · simp [hr] at hr'

/-- Settles O20, from what a word does to the error record and from the kinds of edge. -/
theorem faultIsStickyUntilReset : Obligations.FaultIsStickyUntilReset := by
  refine ⟨fun w s t h => ?_, fun s t h hs ht => ?_, fun s t h hr => ?_⟩
  · obtain ⟨hstat, hf, -⟩ | ⟨hok, hf, -⟩ := perform_errorRecord h
    · exact ⟨fun _ => hf, fun hok => absurd hok hstat, perform_keeps_fault h⟩
    · exact ⟨fun hstat => absurd hok hstat, fun _ => hf, perform_keeps_fault h⟩
  · by_contra hr
    simp [step_keeps_fault h (by simpa using hr) hs] at ht
  · rw [step_of_rst h hr]
    rfl

theorem faultRecordInv_reset : FaultRecordInv State.reset := by decide

/-- The invariant of R32, with the code read by name. -/
theorem faultRecordInv_iff (s : State) : FaultRecordInv s ↔ (s.fault = true ↔ s.fcode ≠ .ok) :=
  iff_congr Iff.rfl (not_congr (Status.code_eq_zero _))

theorem faultRecordInv_raiseError {s : State} (h : FaultRecordInv s) (e : ErrorCode) :
    FaultRecordInv (s.raiseError e) := by
  rw [faultRecordInv_iff] at h ⊢
  cases hf : s.fault with
  | false => simp [hf]
  | true => simp [hf, h.mp hf]

theorem faultRecordInv_effect {s : State} (h : FaultRecordInv s) (i : Instr) : FaultRecordInv (effect s i) := by
  obtain ⟨hf, hc⟩ := effect_errorRecord s i
  rwa [FaultRecordInv, hf, hc]

theorem perform_keeps_faultRecordInv {w : Cmd} {s t : State} (h : perform w s = .next t) (hs : FaultRecordInv s) :
    FaultRecordInv t := by
  obtain ⟨e, rfl⟩ | ⟨i, -, -, rfl⟩ := perform_result h
  · exact faultRecordInv_raiseError hs e
  · exact faultRecordInv_effect hs i

/-- Settles O21, from what a word does to the error record. -/
theorem fcodeKeepsTheFirstErrorCode : Obligations.FcodeKeepsTheFirstErrorCode := by
  refine ⟨fun w s t h => ?_, rfl, faultRecordInv_reset⟩
  have hinv := perform_keeps_faultRecordInv h
  obtain ⟨hstat, -, hc⟩ | ⟨hok, -, hc⟩ := perform_errorRecord h
  · exact ⟨fun _ hf => by simpa [hf] using hc, fun hf => by simpa [hf] using hc, fun hok => absurd hok hstat, hinv⟩
  · exact ⟨fun hstat => absurd hok hstat, fun _ => hc, fun _ => hc, hinv⟩

/-! ## Who writes the codebook and the counters (R34) -/

/-- The codebook and `CB_VALID` change by BUILD alone, which completes only where the codebook is not built (R24, R100). -/
theorem perform_codebook {w : Cmd} {s t : State} (h : perform w s = .next t) :
    (decode w = .command .build ∧ s.cbValid = false ∧ t.cbValid = true) ∨ (t.cb = s.cb ∧ t.cbValid = s.cbValid) := by
  obtain ⟨e, rfl⟩ | ⟨i, hi, hp, rfl⟩ := perform_result h
  · exact .inr ⟨rfl, rfl⟩
  obtain ⟨rfl, he⟩ | ⟨-, he⟩ | ⟨a, b, -, he⟩ | ⟨r, he⟩ := effect_cases s i <;> rw [he]
  · exact .inl ⟨hi, by simpa [preconditionHolds] using hp, rfl⟩
  all_goals exact .inr ⟨rfl, rfl⟩

/-- An edge without reset does not clear `CB_VALID` (R24). -/
theorem step_keeps_cbValid {s t : State} (h : step s = .next t) (hr : s.nextInputs.rst = false)
    (hv : s.cbValid = true) : t.cbValid = true := by
  obtain ⟨hr', -⟩ | ⟨-, rfl⟩ | ⟨-, hp⟩ := step_result h
  · simp [hr] at hr'
  · exact hv
  · obtain ⟨-, -, ht⟩ | ⟨-, ht⟩ := perform_codebook hp
    · exact ht
    · exact ht.trans hv

/-- Settles O28, with what a word does to the codebook and the one word of BUILD. -/
theorem onlyBuildWritesTheCodebook : Obligations.OnlyBuildWritesTheCodebook := by
  refine ⟨fun w s t h hne => ?_, fun s t h hs ht => ?_⟩
  · obtain ⟨hw, hs, ht⟩ | ⟨hcb, hv⟩ := perform_codebook h
    · exact ⟨(encode_of_decode hw).symm, hs, ht⟩
    · simp [hcb, hv] at hne
  · by_contra hr
    simp [step_keeps_cbValid h (by simpa using hr) hs] at ht

/-- The counters change by CLSACC and HCLR alone, and only where they complete (R34, R171). -/
theorem perform_counters {w : Cmd} {s t : State} (h : perform w s = .next t) :
    (((∃ a b, decode w = .command (.clsacc a b)) ∨ decode w = .command .hclr) ∧ t.stat = .ok) ∨
    (t.cnt = s.cnt ∧ t.dh = s.dh) := by
  obtain ⟨e, rfl⟩ | ⟨i, hi, -, rfl⟩ := perform_result h
  · exact .inr ⟨rfl, rfl⟩
  obtain ⟨-, he⟩ | ⟨rfl, -⟩ | ⟨a, b, rfl, -⟩ | ⟨r, he⟩ := effect_cases s i
  · exact .inr (by rw [he]; exact ⟨rfl, rfl⟩)
  · exact .inl ⟨.inr hi, rfl⟩
  · exact .inl ⟨.inl ⟨a, b, hi⟩, rfl⟩
  · exact .inr (by rw [he]; exact ⟨rfl, rfl⟩)

/-- Settles O53, with what a word does to the counters and the words of CLSACC and HCLR. -/
theorem onlyClsaccAndHclrWriteCounters : Obligations.OnlyClsaccAndHclrWriteCounters := by
  intro w s t h hne
  obtain ⟨⟨a, b, hw⟩ | hw, hok⟩ | ⟨hcnt, hdh⟩ := perform_counters h
  · exact ⟨.inl (opcode_of_decode hw), hok⟩
  · exact ⟨.inr (encode_of_decode hw).symm, hok⟩
  · simp [hcnt, hdh] at hne

/-! ## Frames (R20, R22, R203) -/

/-- Settles O23: neither the checks, nor an error, nor an effect reads `RES` or `STAT`. -/
theorem commandsIgnoreResAndStat : Obligations.CommandsIgnoreResAndStat := by
  intro i s r c
  have hp : preconditionHolds { s with res := r, stat := c } i = preconditionHolds s i := preconditionHolds_congr rfl i
  have he : effect { s with res := r, stat := c } i = effect s i := by cases i <;> rfl
  rw [exec_eq, exec_eq, hp, he]
  rfl

/-- Settles O55: an effect beside those of BUILD, HCLR and CLSACC is one `State.complete`, whose two
writes no command reads. -/
theorem frameOfTheReadingCommands : Obligations.FrameOfTheReadingCommands := by
  intro i s t hbuild hhclr hclsacc h
  obtain ⟨e, rfl⟩ | ⟨-, rfl⟩ := exec_result h
  · exact ⟨rfl, fun hok => absurd hok e.status_ne_ok⟩
  obtain ⟨hi, -⟩ | ⟨hi, -⟩ | ⟨a, b, hi, -⟩ | ⟨r, he⟩ := effect_cases s i
  · exact absurd hi hbuild
  · exact absurd hi hhclr
  · exact absurd hi (hclsacc a b)
  · rw [he] at h ⊢
    exact ⟨rfl, fun _ => ⟨rfl, (commandsIgnoreResAndStat i s r .ok).trans h⟩⟩

/-- Settles O56, from the effects of the two commands, or the four writes of an error. -/
theorem frameOfTheCountingCommands : Obligations.FrameOfTheCountingCommands := by
  intro i s t hi h
  obtain ⟨e, rfl⟩ | ⟨-, rfl⟩ := exec_result h
  · exact ⟨fun hok => absurd hok e.status_ne_ok, fun _ => rfl⟩
  refine ⟨fun _ => ?_, fun hstat => absurd (effect_stat s i) hstat⟩
  obtain rfl | ⟨a, b, rfl⟩ := hi
  · rfl
  · rfl

/-- Settles O57, from the effect of BUILD, or the four writes of an error. -/
theorem frameOfBuild : Obligations.FrameOfBuild := by
  intro s t h
  obtain ⟨e, rfl⟩ | ⟨-, rfl⟩ := exec_result h
  · exact ⟨fun hok => absurd hok e.status_ne_ok, fun _ => rfl⟩
  · exact ⟨fun _ => rfl, fun hstat => absurd (effect_stat s .build) hstat⟩

/-! ## The status view (R33) -/

theorem statusView_bits (s : State) :
    s.statusView[0] = s.cbValid ∧ s.statusView[1] = s.fault ∧ s.statusView.extractLsb' 2 2 = 0 ∧
      s.statusView.extractLsb' 4 2 = s.fcode.code ∧ s.statusView.extractLsb' 6 26 = 0 := by
  unfold State.statusView
  cases s.cbValid <;> cases s.fault <;> cases s.fcode <;> decide

/-- Settles O52: RDSTAT completes with the status view. -/
theorem rdstatReturnsTheStatusView : Obligations.RdstatReturnsTheStatusView :=
  fun s => ⟨s.statusView, rfl, statusView_bits s⟩

/-! ## Reset (R20, R221) -/

theorem countersClear_reset : CountersClear State.reset :=
  ⟨State.reset.cntAt_clearCounters, State.reset.dhAt_clearCounters⟩

/-- Settles O14, field by field. -/
theorem resetLeavesTheSpecValues : Obligations.ResetLeavesTheSpecValues :=
  ⟨rfl, countersClear_reset, rfl, rfl, rfl, rfl, rfl⟩

/-! ## The counter equalities of R161

A trial is of class 0 exactly at distance 0 and of class 1 exactly at distance 1, whatever the codebook holds, so the
two counters a trial adds to stand on the two sides of one equality. -/

/-- Seven bits fit a distance, so the count of R11 does not wrap. -/
theorem popcount7_toNat (v : Word) : (popcount7 v).toNat = (List.range 7).countP v.getLsbD := by
  have hle : (List.range 7).countP v.getLsbD ≤ 7 := List.countP_le_length
  rw [popcount7, BitVec.toNat_ofNat, Nat.mod_eq_of_lt (by omega)]

@[simp] theorem popcount7_eq_zero_iff (v : Word) : popcount7 v = 0#3 ↔ v = 0#7 := by
  constructor
  · intro h
    have hcount : (List.range 7).countP v.getLsbD = 0 := by rw [← popcount7_toNat, h]; rfl
    ext i hi
    simpa [hi] using List.countP_eq_zero.mp hcount i (List.mem_range.mpr hi)
  · rintro rfl
    rfl

@[simp] theorem wordDist_eq_zero_iff (a b : Word) : wordDist a b = 0#3 ↔ a = b := by
  rw [wordDist, popcount7_eq_zero_iff, BitVec.xor_eq_zero_iff]

/-- Classes and distances of a trial correspond, as far as R161 counts on it. -/
theorem classify_class_distance (cb : Vector Word 16) (t r : Word) :
    ((classify cb t r).cls.code = 0 ∧ (classify cb t r).distance = 0) ∨
    ((classify cb t r).cls.code = 1 ∧ (classify cb t r).distance = 1) ∨
    (((classify cb t r).cls.code = 2 ∨ (classify cb t r).cls.code = 3) ∧
      (classify cb t r).distance ≠ 0 ∧ (classify cb t r).distance ≠ 1) := by
  by_cases h0 : r = t
  · exact .inl (by simp [classify, h0, TrialClass.code])
  have hdist : t ≠ r := Ne.symm h0
  by_cases h1 : wordDist t r = 1#3
  · exact .inr (.inl (by simp [classify, h0, h1, TrialClass.code]))
  · refine .inr (.inr ⟨?_, by simpa [classify] using hdist, h1⟩)
    cases hcw : isCodeword cb r <;> simp [classify, h0, h1, hcw, TrialClass.code]

theorem cntAt_sum_countClass (s : State) {k : BitVec 2} (hk : k = 2 ∨ k = 3) :
    (s.countClass k).cntAt 2 + (s.countClass k).cntAt 3 = s.cntAt 2 + s.cntAt 3 + 1 := by
  simp only [State.cntAt_countClass]
  rcases hk with rfl | rfl <;> simp <;> ring

theorem dhAt_sum_countDistance (s : State) {d : Distance} (hd0 : d ≠ 0) (hd1 : d ≠ 1) :
    (s.countDistance d).dhAt 2 + (s.countDistance d).dhAt 3 + (s.countDistance d).dhAt 4 +
        (s.countDistance d).dhAt 5 + (s.countDistance d).dhAt 6 + (s.countDistance d).dhAt 7 =
      s.dhAt 2 + s.dhAt 3 + s.dhAt 4 + s.dhAt 5 + s.dhAt 6 + s.dhAt 7 + 1 := by
  have hd : d = 2 ∨ d = 3 ∨ d = 4 ∨ d = 5 ∨ d = 6 ∨ d = 7 := by revert d; decide
  simp only [State.dhAt_countDistance]
  rcases hd with rfl | rfl | rfl | rfl | rfl | rfl <;> simp <;> ring

/-- Adding one to a class counter and to a distance counter on the two sides of one equality keeps all of them. -/
theorem counterInv_count {s : State} (h : CounterInv s) {k : BitVec 2} {d : Distance}
    (hkd : (k = 0 ∧ d = 0) ∨ (k = 1 ∧ d = 1) ∨ ((k = 2 ∨ k = 3) ∧ d ≠ 0 ∧ d ≠ 1)) :
    CounterInv ((s.countClass k).countDistance d) := by
  simp only [CounterInv, State.cntAt_countDistance]
  obtain ⟨rfl, rfl⟩ | ⟨rfl, rfl⟩ | ⟨hk, hd0, hd1⟩ := hkd
  · simpa [State.cntAt_countClass, State.dhAt_countDistance, CounterInv] using h
  · simpa [State.cntAt_countClass, State.dhAt_countDistance, CounterInv] using h
  · obtain ⟨h0, h1, h2⟩ := h
    have hk0 : 0 ≠ k := by rcases hk with rfl | rfl <;> decide
    have hk1 : 1 ≠ k := by rcases hk with rfl | rfl <;> decide
    refine ⟨?_, ?_, ?_⟩
    · rw [State.cntAt_countClass, State.dhAt_countDistance, if_neg hk0, if_neg hd0.symm]
      exact h0
    · rw [State.cntAt_countClass, State.dhAt_countDistance, if_neg hk1, if_neg hd1.symm]
      exact h1
    · rw [cntAt_sum_countClass s hk, dhAt_sum_countDistance _ hd0 hd1, h2]
      rfl

/-! ## The invariant of the block (R25, R32, R161) -/

/-- Settles O58, field by field of the state after reset. -/
theorem resetSatisfiesTheInvariant : Obligations.ResetSatisfiesTheInvariant := by
  obtain ⟨hc, hd⟩ := countersClear_reset
  exact ⟨fun hv => absurd hv (by decide), faultRecordInv_reset, by simp [CounterInv, hc, hd]⟩

theorem codebookInv_effect {s : State} (h : CodebookInv s) (i : Instr) : CodebookInv (effect s i) := by
  obtain ⟨-, he⟩ | ⟨-, he⟩ | ⟨a, b, -, he⟩ | ⟨r, he⟩ := effect_cases s i <;> rw [he]
  · exact codebookInv_buildCodebook s
  all_goals exact h

theorem counterInv_effect {s : State} (h : CounterInv s) (i : Instr) : CounterInv (effect s i) := by
  obtain ⟨-, he⟩ | ⟨-, he⟩ | ⟨a, b, -, he⟩ | ⟨r, he⟩ := effect_cases s i <;> rw [he]
  · exact h
  · simp [CounterInv]
  · exact counterInv_count h (classify_class_distance s.cb _ b)
  · exact h

theorem perform_keeps_blockInv {w : Cmd} {s t : State} (h : perform w s = .next t) (hs : BlockInv s) : BlockInv t := by
  obtain ⟨hcb, hrec, hcnt⟩ := hs
  obtain ⟨e, rfl⟩ | ⟨i, -, -, rfl⟩ := perform_result h
  · exact ⟨hcb, faultRecordInv_raiseError hrec e, hcnt⟩
  · exact ⟨codebookInv_effect hcb i, faultRecordInv_effect hrec i, counterInv_effect hcnt i⟩

/-- Settles O59, over the kinds of edge, each of which keeps the three parts of the invariant. -/
theorem everyStepKeepsTheInvariant : Obligations.EveryStepKeepsTheInvariant := by
  intro s t hs h
  obtain ⟨-, rfl⟩ | ⟨-, rfl⟩ | ⟨-, hp⟩ := step_result h
  · exact resetSatisfiesTheInvariant
  · exact hs
  · exact perform_keeps_blockInv hp hs

end Sys2Proof.Machine
end

section
/-! PROOFS. What `CB` holds before BUILD cannot be observed (R25, R35). The relation between the two blocks is kept by
every operation that leaves the codebook alone, and BUILD makes the two blocks equal. A command that reads the codebook
raises PRECONDITION in both. -/

namespace Sys2Proof.Machine

/-- Both answers are next states, and these differ at most in an unbuilt codebook. -/
def AnswersAgree (o o' : Answer) : Prop :=
  ∃ u v, o = .next u ∧ o' = .next v ∧ SameButUnbuiltCodebook u v

/-- The other block is the same one with some other codebook. -/
theorem SameButUnbuiltCodebook.eq_or_withCb {s t : State} (h : SameButUnbuiltCodebook s t) :
    s = t ∨ (s.cbValid = false ∧ ∃ cb, t = { s with cb := cb }) := by
  obtain heq | ⟨hv, ht⟩ := h
  · exact .inl heq
  · exact .inr ⟨hv, t.cb, ht.symm⟩

/-- An operation that neither reads nor writes the codebook, nor writes `CB_VALID`, keeps the relation. -/
theorem SameButUnbuiltCodebook.map {s t : State} (h : SameButUnbuiltCodebook s t) (f : State → State)
    (hcb : ∀ cb, f { s with cb := cb } = { f s with cb := cb }) (hv : (f s).cbValid = s.cbValid) :
    SameButUnbuiltCodebook (f s) (f t) := by
  obtain rfl | ⟨hs, cb, rfl⟩ := h.eq_or_withCb
  · exact .inl rfl
  · exact .inr ⟨hv.trans hs, by rw [hcb]⟩

theorem SameButUnbuiltCodebook.cbValid_eq {s t : State} (h : SameButUnbuiltCodebook s t) : s.cbValid = t.cbValid := by
  obtain rfl | ⟨-, cb, rfl⟩ := h.eq_or_withCb <;> rfl

theorem SameButUnbuiltCodebook.inputs_eq {s t : State} (h : SameButUnbuiltCodebook s t) : s.inputs = t.inputs := by
  obtain rfl | ⟨-, cb, rfl⟩ := h.eq_or_withCb <;> rfl

theorem SameButUnbuiltCodebook.response_eq {s t : State} (h : SameButUnbuiltCodebook s t) : s.response = t.response := by
  obtain rfl | ⟨-, cb, rfl⟩ := h.eq_or_withCb <;> rfl

/-- A command whose precondition holds with the codebook not built does not read the codebook. -/
theorem SameButUnbuiltCodebook.effect_of_precondition {s t : State} (h : SameButUnbuiltCodebook s t) {i : Instr}
    (hp : preconditionHolds s i = true) : SameButUnbuiltCodebook (effect s i) (effect t i) := by
  obtain rfl | ⟨hv, cb, rfl⟩ := h.eq_or_withCb
  · exact .inl rfl
  cases i with
  | build => exact .inl rfl
  | lookup | dec | cls | clsacc => simp [preconditionHolds, hv] at hp
  | enc | dist | hclr | rdcls | rddh | rdstat => exact .inr ⟨hv, rfl⟩

theorem SameButUnbuiltCodebook.raiseError {s t : State} (h : SameButUnbuiltCodebook s t) (e : ErrorCode) :
    SameButUnbuiltCodebook (s.raiseError e) (t.raiseError e) :=
  h.map (·.raiseError e) (fun _ => rfl) rfl

theorem SameButUnbuiltCodebook.exec_agree {s t : State} (h : SameButUnbuiltCodebook s t) (i : Instr) :
    AnswersAgree (exec i s) (exec i t) := by
  refine ⟨_, _, exec_eq i s, exec_eq i t, ?_⟩
  rw [← preconditionHolds_congr h.cbValid_eq i]
  cases operandInRange i with
  | false => exact h.raiseError _
  | true =>
    cases hp : preconditionHolds s i with
    | false => exact h.raiseError _
    | true => exact h.effect_of_precondition hp

theorem SameButUnbuiltCodebook.perform_agree {s t : State} (h : SameButUnbuiltCodebook s t) (w : Cmd) :
    AnswersAgree (perform w s) (perform w t) := by
  unfold perform
  cases decode w with
  | command i => exact h.exec_agree i
  | illegal why => exact ⟨_, _, rfl, rfl, h.raiseError _⟩

theorem SameButUnbuiltCodebook.step_agree {s t : State} (h : SameButUnbuiltCodebook s t) :
    AnswersAgree (step s) (step t) := by
  have hnext : s.nextInputs = t.nextInputs := by rw [State.nextInputs, State.nextInputs, h.inputs_eq]
  have hsampled := h.map State.afterSampling (fun _ => rfl) rfl
  unfold step clockEdge
  rw [hnext]
  split
  · refine ⟨_, _, rfl, rfl, .inl ?_⟩
    rw [State.resetEdge, State.resetEdge, hsampled.inputs_eq]
  split
  · exact (hsampled.map (fun u => { u with rspValid := true }) (fun _ => rfl) rfl).perform_agree _
  · exact ⟨_, _, rfl, rfl, hsampled.map (fun u => { u with rspValid := false }) (fun _ => rfl) rfl⟩

theorem run_succ_of_step {s t : State} (h : step s = .next t) (n : Nat) : core.run (n + 1) s = core.run n t := by
  have hcore : core.step s = .next t := h
  simp only [Host.Core.run, hcore]

theorem SameButUnbuiltCodebook.run_agree (n : Nat) {s t : State} (h : SameButUnbuiltCodebook s t) :
    AnswersAgree (core.run n s) (core.run n t) := by
  induction n generalizing s t with
  | zero => exact ⟨s, t, rfl, rfl, h⟩
  | succ n ih =>
    obtain ⟨u, v, hu, hv, huv⟩ := h.step_agree
    rw [run_succ_of_step hu, run_succ_of_step hv]
    exact ih huv

/-- Settles O60, from the relation after `n` steps; related blocks show the same ports. -/
theorem unbuiltCodebookIsUnobservable : Obligations.UnbuiltCodebookIsUnobservable := by
  intro n s t h
  obtain ⟨u, v, hu, hv, huv⟩ := h.run_agree n
  exact ⟨u, v, hu, hv, huv, huv.response_eq⟩

end Sys2Proof.Machine
end

section
/-! PROOFS. Clocked steps over offered words refine the run of the words (20_memory.md R46; 70_reset_and_hazards.md R231).
No word reads or writes the ports, so the run from any setting of the ports is the run from any other, and the step
that samples an offered word is the performance of that word. -/

namespace Sys2Proof.Machine

/-- The same block with other values in the two port fields: `rsp_valid` and the coming inputs. -/
def State.withPorts (s : State) (valid : Bool) (inputs : List PortInputs) : State :=
  { s with rspValid := valid, inputs := inputs }

@[simp] theorem State.withPorts_cbValid (s : State) (valid : Bool) (inputs : List PortInputs) :
    (s.withPorts valid inputs).cbValid = s.cbValid := rfl

theorem State.raiseError_withPorts (s : State) (e : ErrorCode) (valid : Bool) (inputs : List PortInputs) :
    (s.withPorts valid inputs).raiseError e = (s.raiseError e).withPorts valid inputs := rfl

theorem effect_withPorts (s : State) (i : Instr) (valid : Bool) (inputs : List PortInputs) :
    effect (s.withPorts valid inputs) i = (effect s i).withPorts valid inputs := by
  cases i <;> rfl

theorem checked_withPorts (inRange precondition : Bool) (s t : State) (valid : Bool) (inputs : List PortInputs) :
    checked inRange precondition (s.withPorts valid inputs) (t.withPorts valid inputs) =
      (checked inRange precondition s t).withPorts valid inputs := by
  cases inRange with
  | false => exact s.raiseError_withPorts _ valid inputs
  | true =>
    cases precondition with
    | false => exact s.raiseError_withPorts _ valid inputs
    | true => rfl

/-- A command does the same whatever the ports show, and leaves them as they are. -/
theorem exec_withPorts {i : Instr} {s t : State} (h : exec i s = .next t) (valid : Bool) (inputs : List PortInputs) :
    exec i (s.withPorts valid inputs) = .next (t.withPorts valid inputs) := by
  have hp := preconditionHolds_congr (s.withPorts_cbValid valid inputs) i
  rw [exec_eq] at h
  obtain rfl := Host.Outcome.next.inj h
  rw [exec_eq, hp, effect_withPorts, checked_withPorts]

/-- A word does the same whatever the ports show, and leaves them as they are. -/
theorem perform_withPorts {w : Cmd} {s t : State} (h : perform w s = .next t) (valid : Bool)
    (inputs : List PortInputs) : perform w (s.withPorts valid inputs) = .next (t.withPorts valid inputs) := by
  unfold perform at h ⊢
  cases hw : decode w with
  | command i =>
    rw [hw] at h
    exact exec_withPorts h valid inputs
  | illegal why =>
    rw [hw] at h
    obtain rfl := Host.Outcome.next.inj h
    rfl

/-- The edge at which a word is offered performs it, with `rsp_valid` set and the offer taken (R72). -/
theorem step_offer (s : State) (valid : Bool) (w : Cmd) (rest : List PortInputs) :
    step (s.withPorts valid (.offer w :: rest)) = perform w (s.withPorts true rest) := rfl

/-- A run that ends passes through the state its first word leaves. -/
theorem runCommands_cons_eq_next {w : Cmd} {ws : List Cmd} {s t : State} :
    runCommands (w :: ws) s = .next t ↔ ∃ u, perform w s = .next u ∧ runCommands ws u = .next t := by
  rw [runCommands]
  cases perform w s <;> simp

/-- The refinement from any value of `rsp_valid`, which the first offered word overwrites: the induction needs it for
the value the state before had. -/
theorem run_offers {ws : List Cmd} {s t : State} (h : runCommands ws s = .next t) (valid : Bool) :
    core.run ws.length (s.withPorts valid (ws.map .offer)) =
      .next (t.withPorts (if ws.isEmpty then valid else true) []) := by
  induction ws generalizing s valid with
  | nil =>
    obtain rfl := Host.Outcome.next.inj h
    rfl
  | cons w ws ih =>
    obtain ⟨u, hw, hws⟩ := runCommands_cons_eq_next.mp h
    have hstep : step (s.withPorts valid ((w :: ws).map .offer)) = .next (u.withPorts true (ws.map .offer)) :=
      (step_offer s valid w _).trans (perform_withPorts hw true _)
    rw [List.length_cons, run_succ_of_step hstep, ih hws true, ite_self]
    rfl

/-- Settles O16, from the refinement at the state's own `rsp_valid`. -/
theorem stepsRefineTheRunOfCommands : Obligations.StepsRefineTheRunOfCommands :=
  fun _ s _ h => run_offers h s.rspValid

end Sys2Proof.Machine
end

section
/-! PROOFS. The opcode table (30_encoding.md R61, R64, R67). Row `k` of the table belongs to the opcode `k + 1`, and a
word selects it exactly when its opcode field is that one and every field the row does not use is 0. So a word selects
at most one row, the row of its command, and none where one of the three causes of R67 holds. -/

namespace Sys2Proof.Machine

/-! ## Which row a word selects -/

/-- A row of the table, by its fields: its opcode, and which operands its command uses (R64). -/
theorem selects_iff_fields {k : Nat} {r : Row} (hr : rows[k]? = some r) (w : Cmd) :
    r.selects w = true ↔
      (fieldOp w).toNat = k + 1 ∧ fieldRsv1 w = 0 ∧ fieldRsv0 w = 0 ∧
      (usesA (k + 1) = false → fieldA w = 0) ∧ (usesB (k + 1) = false → fieldB w = 0) := by
  obtain ⟨hk, rfl⟩ := List.getElem?_eq_some_iff.mp hr
  have hop (n : Nat) (hn : n < 16) : fieldOp w = BitVec.ofNat 4 n ↔ (fieldOp w).toNat = n := by
    rw [← BitVec.toNat_inj, BitVec.toNat_ofNat, Nat.mod_eq_of_lt hn]
  replace hk : k < 11 := hk
  interval_cases k <;>
    simp [rows_eq, selects_no_operand, selects_operandA, selects_operandB, selects_both_operands, hop, usesA, usesB] <;>
    tauto

theorem opcode_of_row {k : Nat} {r : Row} (hr : rows[k]? = some r) (a b : Word) :
    (r.command a b).opcode.toNat = k + 1 := by
  obtain ⟨hk, rfl⟩ := List.getElem?_eq_some_iff.mp hr
  replace hk : k < 11 := hk
  interval_cases k <;> rfl

/-- At most one row matches any word, because the rows differ in their opcode (R64). -/
theorem row_unique {j k : Nat} {q r : Row} {w : Cmd} (hq : rows[j]? = some q) (hr : rows[k]? = some r)
    (hqw : q.selects w = true) (hrw : r.selects w = true) : j = k := by
  obtain ⟨hj, -⟩ := (selects_iff_fields hq w).mp hqw
  obtain ⟨hk, -⟩ := (selects_iff_fields hr w).mp hrw
  omega

/-! ## What the decoder answers -/

/-- The decoder answers the command of the row a word selects, since no earlier row matches (R64). -/
theorem decode_of_selects {k : Nat} {r : Row} {w : Cmd} (hr : rows[k]? = some r) (hw : r.selects w = true) :
    decode w = .command (r.command (fieldA w) (fieldB w)) := by
  unfold decode
  split
  next q hq =>
    obtain ⟨j, hj⟩ := List.mem_iff_getElem?.mp (List.mem_of_find?_eq_some hq)
    obtain rfl := row_unique hj hr (by simpa using List.find?_some hq) hw
    rw [Option.some.inj (hj.symm.trans hr)]
  next hnone => exact absurd hw (List.find?_eq_none.mp hnone r (List.mem_of_getElem? hr))

/-- A word that selects no row is refused, under its cause (R67). -/
theorem decode_eq_illegal_iff (w : Cmd) (why : Illegal) :
    decode w = .illegal why ↔ (∀ r ∈ rows, r.selects w ≠ true) ∧ illegalCause w = why := by
  unfold decode
  split
  next r hr =>
    have hw : r.selects w = true := by simpa using List.find?_some hr
    simp only [reduceCtorEq, false_iff, not_and]
    exact fun hnone => absurd hw (hnone r (List.mem_of_find?_eq_some hr))
  next hnone =>
    have hall : ∀ r ∈ rows, r.selects w ≠ true := List.find?_eq_none.mp hnone
    rw [Decoded.illegal.injEq, and_iff_right hall]

/-- The row of a command's opcode spells the command with the command's own operands (R64). -/
theorem row_of_command (i : Instr) :
    ∃ k r, rows[k]? = some r ∧ i.opcode.toNat = k + 1 ∧ r.command i.operandA i.operandB = i := by
  cases i with
  | build => exact ⟨0, _, rfl, rfl, rfl⟩
  | enc => exact ⟨1, _, rfl, rfl, rfl⟩
  | lookup => exact ⟨2, _, rfl, rfl, rfl⟩
  | dist => exact ⟨3, _, rfl, rfl, rfl⟩
  | dec => exact ⟨4, _, rfl, rfl, rfl⟩
  | cls => exact ⟨5, _, rfl, rfl, rfl⟩
  | clsacc => exact ⟨6, _, rfl, rfl, rfl⟩
  | hclr => exact ⟨7, _, rfl, rfl, rfl⟩
  | rdcls => exact ⟨8, _, rfl, rfl, rfl⟩
  | rddh => exact ⟨9, _, rfl, rfl, rfl⟩
  | rdstat => exact ⟨10, _, rfl, rfl, rfl⟩

/-- The operand fields a command does not use are 0 (R64). -/
theorem unusedOperands_eq_zero (i : Instr) :
    (usesA i.opcode.toNat = false → i.operandA = 0) ∧ (usesB i.opcode.toNat = false → i.operandB = 0) := by
  cases i <;> simp [usesA, usesB, Instr.opcode, Instr.operandA, Instr.operandB]

/-- Decoding the word of a command: it selects the row of the command's opcode, and no other. -/
theorem decode_encode (i : Instr) : decode (encode i) = .command i := by
  obtain ⟨k, r, hr, hop, hcommand⟩ := row_of_command i
  have hunused := unusedOperands_eq_zero i
  rw [hop] at hunused
  have hw : r.selects (encode i) = true :=
    (selects_iff_fields hr _).mpr (by simpa [encode, hop] using hunused)
  rw [decode_of_selects hr hw, encode, fieldA_commandWord, fieldB_commandWord, hcommand]

/-- Settles O2, from the one row the word of a command selects. -/
theorem decodeOfEncode : Obligations.DecodeOfEncode := decode_encode

/-- Settles O3: the fields outside the mask of the row a word selects are the operands of its command. -/
theorem encodeOfDecode : Obligations.EncodeOfDecode := fun _ _ => encode_of_decode

/-! ## Match and mask (R64) -/

/-- The match and mask columns of the table. -/
def matchAndMask : List (Cmd × Cmd) := rows.map fun r => (r.pattern, r.mask)

theorem matchAndMask_iff_selects {k : Nat} {r : Row} (hr : rows[k]? = some r) (w : Cmd) :
    w &&& (matchAndMask.getD k (0, 0)).2 = (matchAndMask.getD k (0, 0)).1 ↔ r.selects w = true := by
  simp [matchAndMask, List.getD_eq_getElem?_getD, hr, Row.selects]

theorem decode_opcode_iff_selects {k : Nat} {r : Row} (hr : rows[k]? = some r) (w : Cmd) :
    (∃ i, decode w = .command i ∧ i.opcode.toNat = k + 1) ↔ r.selects w = true := by
  constructor
  · rintro ⟨i, hi, hop⟩
    obtain ⟨q, hq, hw, rfl⟩ := exists_row_of_decode hi
    obtain ⟨j, hj⟩ := List.mem_iff_getElem?.mp hq
    have hjk : j + 1 = k + 1 := (opcode_of_row hj _ _).symm.trans hop
    obtain rfl := Nat.succ.inj hjk
    rwa [← Option.some.inj (hj.symm.trans hr)]
  · exact fun hw => ⟨_, decode_of_selects hr hw, opcode_of_row hr _ _⟩

/-- Settles O4: `matchAndMask` is the table of the statement, and its entry `k` speaks of row `k`. -/
theorem wordSelectsByMatchAndMask : Obligations.WordSelectsByMatchAndMask := by
  unfold Obligations.WordSelectsByMatchAndMask
  intro table w
  have htable : table = matchAndMask := rfl
  have hrow (k : Nat) (hk : k < 11) : rows[k]? = some (rows[k]'hk) := List.getElem?_eq_getElem hk
  rw [htable]
  refine ⟨fun k hk => ?_, fun j hj k hk hjw hkw => ?_, ?_⟩
  · rw [decode_opcode_iff_selects (hrow k hk), matchAndMask_iff_selects (hrow k hk)]
  · rw [matchAndMask_iff_selects (hrow j hj)] at hjw
    rw [matchAndMask_iff_selects (hrow k hk)] at hkw
    exact row_unique (hrow j hj) (hrow k hk) hjw hkw
  · simp only [decode_eq_illegal_iff, exists_and_left, exists_eq', and_true, List.forall_mem_iff_forall_getElem]
    exact forall₂_congr fun k hk => not_congr (matchAndMask_iff_selects (hrow k hk) w)

/-! ## The causes of an illegal word (R67) -/

/-- The word's opcode is reserved. -/
def ReservedOpcode (w : Cmd) : Prop := (fieldOp w).toNat = 0 ∨ 12 ≤ (fieldOp w).toNat

/-- A reserved bit of the word is set. -/
def ReservedBits (w : Cmd) : Prop := fieldRsv1 w ≠ 0 ∨ fieldRsv0 w ≠ 0

/-- A field the word's opcode does not use is nonzero. -/
def UnusedOperandSet (w : Cmd) : Prop :=
  (usesA (fieldOp w).toNat = false ∧ fieldA w ≠ 0) ∨ (usesB (fieldOp w).toNat = false ∧ fieldB w ≠ 0)

/-- The three causes as numbers cut out of the word. -/
theorem illegalCauses_toNat (w : Cmd) :
    (ReservedOpcode w ↔ w.toNat / 2 ^ 28 = 0 ∨ 12 ≤ w.toNat / 2 ^ 28) ∧
    (ReservedBits w ↔ w.toNat / 2 ^ 15 % 2 ^ 13 ≠ 0 ∨ w.toNat / 2 ^ 7 % 2 ≠ 0) ∧
    (UnusedOperandSet w ↔ (usesA (w.toNat / 2 ^ 28) = false ∧ w.toNat / 2 ^ 8 % 2 ^ 7 ≠ 0) ∨
      (usesB (w.toNat / 2 ^ 28) = false ∧ w.toNat % 2 ^ 7 ≠ 0)) := by
  have hop : (fieldOp w).toNat = w.toNat / 2 ^ 28 := by
    have := w.isLt
    rw [fieldOp, BitVec.extractLsb'_toNat, Nat.shiftRight_eq_div_pow]
    omega
  simp [ReservedOpcode, ReservedBits, UnusedOperandSet, hop, ← BitVec.toNat_inj, fieldRsv1, fieldA, fieldRsv0, fieldB,
    Nat.shiftRight_eq_div_pow]

/-- A word selects a row unless one of the three causes holds. -/
theorem exists_selects_iff (w : Cmd) :
    (∃ r ∈ rows, r.selects w = true) ↔ ¬ (ReservedOpcode w ∨ ReservedBits w ∨ UnusedOperandSet w) := by
  simp only [not_or]
  constructor
  · rintro ⟨r, hr, hw⟩
    obtain ⟨k, hk⟩ := List.mem_iff_getElem?.mp hr
    have hlt : k < 11 := (List.getElem?_eq_some_iff.mp hk).1
    obtain ⟨hop, h1, h0, ha, hb⟩ := (selects_iff_fields hk w).mp hw
    refine ⟨?_, by simp [ReservedBits, h1, h0], ?_⟩
    · rw [ReservedOpcode]; omega
    · rw [UnusedOperandSet, hop]; tauto
  · rintro ⟨hop, hbits, hunused⟩
    simp only [ReservedOpcode, ReservedBits, UnusedOperandSet] at hop hbits hunused
    obtain ⟨k, hk⟩ : ∃ k, (fieldOp w).toNat = k + 1 := ⟨(fieldOp w).toNat - 1, by omega⟩
    have hlt : k < rows.length := by change k < 11; omega
    rw [hk] at hunused
    refine ⟨_, List.getElem_mem hlt, (selects_iff_fields (List.getElem?_eq_getElem hlt) w).mpr ⟨hk, ?_⟩⟩
    tauto

/-- The decoder's name for a cause is that of the first that holds (log entry 5). -/
theorem illegalCause_cases (w : Cmd) :
    (ReservedOpcode w ∧ illegalCause w = .reservedOpcode) ∨
    (¬ ReservedOpcode w ∧ ReservedBits w ∧ illegalCause w = .reservedBits) ∨
    (¬ ReservedOpcode w ∧ ¬ ReservedBits w ∧ illegalCause w = .unusedOperand) := by
  have hop : (fieldOp w = 0x0#4 ∨ 0xC#4 ≤ fieldOp w) ↔ ReservedOpcode w := by
    simp [ReservedOpcode, ← BitVec.toNat_inj, BitVec.le_def]
  unfold illegalCause
  split
  next h => exact .inl ⟨hop.mp h, rfl⟩
  next h =>
    split
    next h' => exact .inr (.inl ⟨mt hop.mpr h, h', rfl⟩)
    next h' => exact .inr (.inr ⟨mt hop.mpr h, h', rfl⟩)

/-- A word is refused exactly when a cause holds, under the name `illegalCause` gives it. -/
theorem decode_eq_illegal_iff_cause (w : Cmd) (why : Illegal) :
    decode w = .illegal why ↔
      (ReservedOpcode w ∨ ReservedBits w ∨ UnusedOperandSet w) ∧ illegalCause w = why := by
  have hnone : (∀ r ∈ rows, r.selects w ≠ true) ↔ ReservedOpcode w ∨ ReservedBits w ∨ UnusedOperandSet w := by
    simpa only [not_exists, not_and, not_not] using not_congr (exists_selects_iff w)
  rw [decode_eq_illegal_iff, hnone]

/-- Settles O5: the causes by the word's fields are those by its number, and the decoder names the first that holds. -/
theorem illegalWordsByCause : Obligations.IllegalWordsByCause := by
  intro w
  obtain ⟨hop, hbits, hunused⟩ := illegalCauses_toNat w
  simp only [← hop, ← hbits, ← hunused, decode_eq_illegal_iff_cause]
  obtain ⟨h, hc⟩ | ⟨h, h', hc⟩ | ⟨h, h', hc⟩ := illegalCause_cases w
  · simp [h, hc]
  · simp [h, h', hc]
  · simp [h, h', hc]

/-- Settles O1: the eleven words are those of their commands, and the five others are refused under their causes. -/
theorem wordsOfTheTableDecode : Obligations.WordsOfTheTableDecode :=
  ⟨decode_encode .build, decode_encode (.enc 11), decode_encode (.lookup 127), decode_encode (.dist 0x5A 0x4A),
    decode_encode (.dec 0x4A), decode_encode (.cls 11 0x4A), decode_encode (.clsacc 11 0x4A), decode_encode .hclr,
    decode_encode (.rdcls 3), decode_encode (.rddh 7), decode_encode .rdstat,
    by decide, by decide, by decide, by decide, by decide⟩

/-- Settles O6: the assembler's last act is the range check, and the rule's example is evaluated. -/
theorem assemblerWritesOnlyOperandsInRange : Obligations.AssemblerWritesOnlyOperandsInRange := by
  refine ⟨fun line i h => ?_, by decide⟩
  obtain ⟨-, hwf⟩ := Option.filter_eq_some_iff.mp h
  exact hwf

end Sys2Proof.Machine
end

section
/-! PROOFS. What a step does with the ports it samples (30_encoding.md R65, R72), and the range check of a command (R62). -/

namespace Sys2Proof.Machine

/-! ## Performing the word offered -/

theorem perform_of_command {w : Cmd} {i : Instr} (h : decode w = .command i) (s : State) : perform w s = exec i s := by
  simp [perform, h]

theorem perform_of_illegal {w : Cmd} {why : Illegal} (h : decode w = .illegal why) (s : State) :
    perform w s = .next (s.raiseError .illegal) := by
  simp [perform, h]

theorem perform_answers_next (w : Cmd) (s : State) : ∃ t, perform w s = .next t := by
  obtain ⟨_, -, hw⟩ | ⟨i, -, hw⟩ := perform_eq w s
  · exact ⟨_, hw⟩
  · exact ⟨_, hw.trans (exec_eq i s)⟩

/-- No word touches the ports: neither an error nor an effect does. -/
theorem perform_ports {w : Cmd} {s t : State} (h : perform w s = .next t) :
    t.rspValid = s.rspValid ∧ t.inputs = s.inputs := by
  obtain ⟨e, rfl⟩ | ⟨i, -, -, rfl⟩ := perform_result h
  · exact ⟨rfl, rfl⟩
  · exact effect_ports s i

/-- An edge with a command offered performs it, with the input taken and `rsp_valid` set (R72). -/
theorem step_of_cmdValid {s : State} {p : PortInputs} {rest : List PortInputs} (h : s.inputs = p :: rest)
    (hr : p.rst = false) (hv : p.cmdValid = true) :
    step s = perform p.cmd { s with inputs := rest, rspValid := true } := by
  obtain ⟨hp, hs⟩ := sampling_cons s p rest h
  simp [step, clockEdge, hp, hs, hr, hv]

/-- An edge without a command is idle (R72). -/
theorem step_of_idle {s : State} (hr : s.nextInputs.rst = false) (hv : s.nextInputs.cmdValid = false) :
    step s = .next { s.afterSampling with rspValid := false } := by
  simp [step, clockEdge, hr, hv]

/-- Settles O8, from the edge that performs the word offered. -/
theorem stepRunsTheDecodedCommand : Obligations.StepRunsTheDecodedCommand :=
  fun _ _ _ _ h hr hv hi => (step_of_cmdValid h hr hv).trans (perform_of_command hi _)

/-- Settles O9: the writes are those of `State.raiseError`. -/
theorem stepRaisesIllegalOnOtherWords : Obligations.StepRaisesIllegalOnOtherWords :=
  fun _ _ _ _ h hr hv hw => (step_of_cmdValid h hr hv).trans (perform_of_illegal hw _)

/-- Settles O10: the placed word is the offer at the next edge. -/
theorem stepPerformsThePlacedWord : Obligations.StepPerformsThePlacedWord :=
  fun s nbits w => step_offer s s.rspValid (tableWord nbits w) s.inputs

/-- Settles O12, for an edge listed and for one that is not. -/
theorem idleEdgeKeepsTheState : Obligations.IdleEdgeKeepsTheState := by
  refine ⟨fun s p rest h hr hv => ?_, fun s h => ?_⟩
  · obtain ⟨hp, hs⟩ := sampling_cons s p rest h
    rw [step_of_idle (by rw [hp, hr]) (by rw [hp, hv]), hs]
  · obtain ⟨hp, hs⟩ := sampling_nil s h
    rw [step_of_idle (by rw [hp]; rfl) (by rw [hp]; rfl), hs]

/-- Settles O13: the word answers a state, and leaves the ports as the sampling edge set them. -/
theorem everyOfferedCommandGetsAResponse : Obligations.EveryOfferedCommandGetsAResponse := by
  intro s p rest h hr hv
  obtain ⟨t, ht⟩ := perform_answers_next p.cmd { s with inputs := rest, rspValid := true }
  obtain ⟨hvalid, hinputs⟩ := perform_ports ht
  have hresponse : t.response = ⟨t.rspValid, t.res, t.stat.code⟩ := rfl
  exact ⟨t, (step_of_cmdValid h hr hv).trans ht, by rw [hresponse, hvalid], hinputs⟩

/-! ## Operands out of range (R62) -/

theorem exec_of_out_of_range {i : Instr} (h : operandInRange i = false) (s : State) :
    exec i s = .next (s.raiseError .invalidInput) := by
  rw [exec_eq, h, checked_invalidInput]

/-- Settles O18: the range check comes first, and each command checks its own range. -/
theorem operandsOutOfRangeRaiseInvalidInput : Obligations.OperandsOutOfRangeRaiseInvalidInput := by
  intro s a b raised
  have hraise {i : Instr} (h : operandInRange i = false) : exec i s = .next raised := exec_of_out_of_range h s
  refine ⟨fun ha => ?_, fun ha => ?_, fun ha => ?_⟩
  · have hindex : indexInRange a = false := by
      rw [← Bool.not_eq_true, indexInRange_iff]; omega
    exact ⟨hraise hindex, hraise hindex, hraise hindex, hraise hindex⟩
  · have hclass : classInRange a = false := by
      rw [← Bool.not_eq_true, classInRange_iff]; omega
    exact hraise hclass
  · have hdistance : distanceInRange a = false := by
      rw [← Bool.not_eq_true, distanceInRange_iff]; omega
    exact hraise hdistance

end Sys2Proof.Machine
end

section
/-! PROOFS. The codebook and the encoder (40_codebook_encoder.md R100 to R109). A codeword is its message followed by
parity bits that are xors of message bits, so the code is systematic and linear: the distance of two codewords is the
weight of a third, and the table of weights gives the minimum distance. -/

namespace Sys2Proof.Machine

/-! ## Completing a command (R65) -/

theorem exec_of_checks {i : Instr} {s : State} (hr : operandInRange i = true) (hp : preconditionHolds s i = true) :
    exec i s = .next (effect s i) := by
  rw [exec_eq, hr, hp, checked_true]

theorem exec_enc {a : Word} (ha : a.toNat ≤ 15) (s : State) :
    exec (.enc a) s = .next (s.complete (wordResult (codeword (indexOf a)))) :=
  exec_of_checks ((indexInRange_iff a).mpr ha) rfl

theorem exec_lookup {s : State} {a : Word} (ha : a.toNat ≤ 15) (hv : s.cbValid = true) :
    exec (.lookup a) s = .next (s.complete (wordResult (cbAt s.cb (indexOf a)))) :=
  exec_of_checks ((indexInRange_iff a).mpr ha) hv

theorem exec_build {s : State} (hv : s.cbValid = false) : exec .build s = .next (s.buildCodebook.complete 0) :=
  exec_of_checks rfl (congrArg not hv)

/-! ## BUILD (R100, R101) -/

/-- Settles O26: BUILD's checks hold and its effect is the whole table. -/
theorem buildInitialisesTheCodebook : Obligations.BuildInitialisesTheCodebook :=
  fun _ hv => ⟨_, exec_build hv, cbAt_codebook, rfl⟩

/-- Settles O27: the codebook BUILD writes is a constant, so its entries are a closed fact. -/
theorem buildWritesTheTable : Obligations.BuildWritesTheTable := by
  intro s t h hv
  obtain rfl := Host.Outcome.next.inj (h.symm.trans (exec_build hv))
  rw [State.complete_cb, State.buildCodebook_cb]
  decide

/-! ## ENC (R103) -/

theorem ofBool_append_bits : ∀ p q r : Bool,
    (BitVec.ofBool p ++ BitVec.ofBool q ++ BitVec.ofBool r)[2] = p ∧
      (BitVec.ofBool p ++ BitVec.ofBool q ++ BitVec.ofBool r)[1] = q ∧
      (BitVec.ofBool p ++ BitVec.ofBool q ++ BitVec.ofBool r)[0] = r := by
  decide

/-- The bits are p1, p2 and p3 (R12). -/
theorem parity_bits (i : Index) :
    (parity i)[2] = (i[2] ^^ i[1] ^^ i[0]) ∧ (parity i)[1] = (i[3] ^^ i[1] ^^ i[0]) ∧
      (parity i)[0] = (i[3] ^^ i[2] ^^ i[0]) :=
  ofBool_append_bits _ _ _

theorem getElem_codeword (i : Index) {k : Nat} (hk : k < 7) :
    (codeword i)[k] = if h : k < 3 then (parity i)[k] else i[k - 3] :=
  BitVec.getElem_append hk

theorem getElem_indexOf (a : Word) {k : Nat} (hk : k < 4) : (indexOf a)[k] = a[k] := by
  rw [indexOf, BitVec.getElem_extractLsb', Nat.zero_add, BitVec.getLsbD_eq_getElem]

/-- Settles O29: bits 6:3 of the result are the message A[3:0], bits 2:0 its parity. -/
theorem encIsTheParityLogic : Obligations.EncIsTheParityLogic := by
  intro s a ha
  refine ⟨codeword (indexOf a), exec_enc ha s, ?_⟩
  simpa [getElem_codeword, getElem_indexOf] using parity_bits (indexOf a)

/-! ## LOOKUP (R104, R105) -/

theorem cbAt_indexOf (cb : Vector Word 16) (a : Word) (ha : a.toNat < 16) : cbAt cb (indexOf a) = cb[a.toNat] := by
  simp [cbAt, indexOf_toNat a (by omega)]

/-- Settles O30: the index an operand in range names is the operand. -/
theorem lookupReturnsTheEntry : Obligations.LookupReturnsTheEntry := by
  intro s a ha hv
  rw [exec_lookup (by omega) hv, cbAt_indexOf _ _ ha]
  rfl

/-- Settles O31: both complete, and by R25 the entry LOOKUP reads is the codeword ENC computes. -/
theorem lookupAgreesWithEnc : Obligations.LookupAgreesWithEnc := by
  intro s a hcb hv ha
  rw [exec_lookup ha hv, exec_enc ha, hcb hv]

/-! ## The code (R106 to R109) -/

/-- The code is systematic: bits 6:3 are the message (R106). -/
theorem codeword_message (i : Index) : (codeword i).extractLsb' 3 4 = i :=
  BitVec.extractLsb'_append_eq_left

theorem codeword_injective : Function.Injective codeword :=
  Function.LeftInverse.injective codeword_message

theorem xor_ofBool_append (p q r p' q' r' : Bool) :
    (BitVec.ofBool p ++ BitVec.ofBool q ++ BitVec.ofBool r) ^^^
        (BitVec.ofBool p' ++ BitVec.ofBool q' ++ BitVec.ofBool r') =
      BitVec.ofBool (p ^^ p') ++ BitVec.ofBool (q ^^ q') ++ BitVec.ofBool (r ^^ r') := by
  simp only [BitVec.xor_append, BitVec.ofBool_xor_ofBool]

/-- Each parity bit is an xor of message bits (R12), so the order of the xors does not matter. -/
theorem parity_xor (i j : Index) : parity i ^^^ parity j = parity (i ^^^ j) := by
  refine (xor_ofBool_append _ _ _ _ _ _).trans ?_
  simp only [parity, BitVec.getLsbD_xor, Bool.xor_assoc, Bool.xor_left_comm]

/-- The code is linear (R109). -/
theorem codeword_xor (i j : Index) : codeword i ^^^ codeword j = codeword (i ^^^ j) := by
  rw [codeword, codeword, codeword, ← parity_xor, BitVec.xor_append]

theorem wordDist_codeword (i j : Index) : wordDist (codeword i) (codeword j) = popcount7 (codeword (i ^^^ j)) := by
  rw [wordDist, codeword_xor]

/-- Settles O32: the message is the codeword's first part, and linearity turns a distance into a weight. -/
theorem codeIsSystematicAndLinear : Obligations.CodeIsSystematicAndLinear :=
  ⟨codeword_message, codeword_xor, wordDist_codeword⟩

/-- Settles O33: a codeword tells its message, and the weights are read off the sixteen codewords. -/
theorem codewordsAreDistinctWithWeights : Obligations.CodewordsAreDistinctWithWeights :=
  ⟨codeword_injective, by decide⟩

/-- By the weights of R107, every codeword beside that of message 0 has weight 3 or more. -/
theorem minimumDistance_le_popcount7_codeword {i : Index} (hi : i ≠ 0) :
    Config.minimumDistance ≤ (popcount7 (codeword i)).toNat := by
  obtain ⟨-, hweight⟩ := codewordsAreDistinctWithWeights
  rw [hweight i, if_neg hi]
  split
  · decide
  · split <;> decide

/-- Settles O34: the distance of two codewords is the weight of the codeword of a message that is not 0. -/
theorem minimumDistanceIsThree : Obligations.MinimumDistanceIsThree := by
  refine ⟨fun i j hne => ?_, ⟨0, 2, by decide, by decide⟩, by decide, by decide, by decide⟩
  rw [wordDist_codeword]
  exact minimumDistance_le_popcount7_codeword fun h => hne (BitVec.xor_eq_zero_iff.mp h)

end Sys2Proof.Machine
end

section
/-! PROOFS. The distance command (41_distance.md R120 to R122). A distance is the weight of an xor, so the laws of `dist`
are those of xor, but for the triangle inequality: there every bit of an xor comes from one of its two words, and the
weight is subadditive. -/

namespace Sys2Proof.Machine

/-! ## DIST (R120) -/

theorem exec_dist (a b : Word) (s : State) :
    exec (.dist a b) s = .next (s.complete (distanceResult (wordDist a b))) :=
  exec_of_checks rfl rfl

/-- `dist` counts the bit positions in which its words differ (R12, R13). -/
theorem wordDist_toNat (a b : Word) :
    (wordDist a b).toNat = (List.range 7).countP fun j => a.getLsbD j != b.getLsbD j := by
  rw [wordDist, popcount7_toNat]
  exact List.countP_congr fun j _ => by rw [BitVec.getLsbD_xor, Bool.bne_eq_xor]

/-- The result of DIST as a number (R66). -/
theorem distanceResult_eq (d : Distance) : distanceResult d = BitVec.ofNat 32 d.toNat :=
  (BitVec.ofNat_toNat 32 d).symm

/-- Settles O35: DIST completes in every state, and the distance it returns is the count. -/
theorem distCountsDifferingPositions : Obligations.DistCountsDifferingPositions := by
  intro s a b
  rw [exec_dist, distanceResult_eq, wordDist_toNat]
  rfl

/-! ## The laws of `dist` (R121) -/

theorem wordDist_comm (a b : Word) : wordDist a b = wordDist b a := by
  rw [wordDist, wordDist, BitVec.xor_comm]

/-- An error pattern moves a word by the pattern's weight. -/
theorem wordDist_xor_left (a e : Word) : wordDist (a ^^^ e) a = popcount7 e := by
  rw [wordDist, BitVec.xor_comm a e, BitVec.xor_assoc, BitVec.xor_self, BitVec.xor_zero]

/-- An entry on which two tests differ satisfies one of them. -/
theorem countP_bne_le {α : Type} (p q : α → Bool) (l : List α) :
    l.countP (fun x => p x != q x) ≤ l.countP p + l.countP q := by
  induction l with
  | nil => simp
  | cons x l ih =>
    have hx : (if p x != q x then 1 else 0) ≤ (if p x then 1 else 0) + (if q x then 1 else 0) := by
      cases p x <;> cases q x <;> decide
    simp only [List.countP_cons]
    omega

/-- The weight is subadditive: `v ^^^ w` has a 1 where `v` and `w` differ. -/
theorem popcount7_xor_le (v w : Word) :
    (popcount7 (v ^^^ w)).toNat ≤ (popcount7 v).toNat + (popcount7 w).toNat := by
  rw [← wordDist, wordDist_toNat, popcount7_toNat, popcount7_toNat]
  exact countP_bne_le v.getLsbD w.getLsbD (List.range 7)

/-- The xor of `a` and `c` goes by way of `b`. -/
theorem wordDist_triangle (a b c : Word) :
    (wordDist a c).toNat ≤ (wordDist a b).toNat + (wordDist b c).toNat := by
  have hway : a ^^^ c = (a ^^^ b) ^^^ (b ^^^ c) := by
    rw [BitVec.xor_assoc, ← BitVec.xor_assoc b b c, BitVec.xor_self, BitVec.zero_xor]
  rw [wordDist, hway]
  exact popcount7_xor_le (a ^^^ b) (b ^^^ c)

/-- Settles O36, law by law; a distance is a number of three bits, so it is at most 7. -/
theorem distIsAMetric : Obligations.DistIsAMetric := fun a b c e =>
  ⟨wordDist_comm a b, (wordDist_eq_zero_iff a a).mpr rfl, wordDist_eq_zero_iff a b, wordDist_triangle a b c,
    Nat.zero_le _, Nat.le_of_lt_succ (wordDist a b).isLt, wordDist_xor_left a e⟩

end Sys2Proof.Machine
end

section
/-! PROOFS. The search over any codebook (42_decoder.md R130 to R132). The loop holds at every turn the first nearest of
the indexes seen so far, because a later index replaces it only if its entry is strictly nearer. -/

namespace Sys2Proof.Machine

/-! ## `is_codeword` (R130) -/

theorem isCodeword_iff (cb : Vector Word 16) (r : Word) : isCodeword cb r = true ↔ ∃ i : Index, cbAt cb i = r := by
  rw [isCodeword, List.contains_iff_mem, Vector.mem_toList_iff, Vector.mem_iff_getElem]
  constructor
  · rintro ⟨k, hk, rfl⟩
    exact ⟨BitVec.ofNat 4 k, by simp [cbAt, Nat.mod_eq_of_lt hk]⟩
  · rintro ⟨i, rfl⟩
    exact ⟨i.toNat, i.isLt, rfl⟩

theorem CodebookInv.isCodeword_iff {s : State} (h : CodebookInv s) (hv : s.cbValid = true) (r : Word) :
    isCodeword s.cb r = true ↔ ∃ i : Index, codeword i = r := by
  simp only [Machine.isCodeword_iff, h hv]

/-- Settles O37: membership in the vector is equality with an entry, and by R25 the entries are the codewords. -/
theorem isCodewordSearchesTheCodebook : Obligations.IsCodewordSearchesTheCodebook :=
  ⟨isCodeword_iff, fun _ r h hv => h.isCodeword_iff hv r⟩

/-! ## The search (R131, R132) -/

/-- Among the indexes of the list, `ci` is the first whose entry is nearest to `r`. -/
def FirstNearest (cb : Vector Word 16) (r : Word) (l : List Index) (ci : Index) : Prop :=
  ∀ j ∈ l, (wordDist (cbAt cb ci) r).toNat ≤ (wordDist (cbAt cb j) r).toNat ∧
    (j < ci → (wordDist (cbAt cb ci) r).toNat < (wordDist (cbAt cb j) r).toNat)

/-- A nearer second index drops the first one of the list. -/
theorem FirstNearest.cons_of_lt {cb : Vector Word 16} {r : Word} {b x ci : Index} {l : List Index}
    (h : FirstNearest cb r (x :: l) ci) (hx : (wordDist (cbAt cb x) r).toNat < (wordDist (cbAt cb b) r).toNat) :
    FirstNearest cb r (b :: x :: l) ci := by
  obtain ⟨hci, -⟩ := h x List.mem_cons_self
  exact List.forall_mem_cons.mpr ⟨⟨by omega, fun _ => by omega⟩, h⟩

/-- A second index that is not nearer is dropped: where it stands below `ci`, the first one does too. -/
theorem FirstNearest.insert_of_le {cb : Vector Word 16} {r : Word} {b x ci : Index} {l : List Index}
    (h : FirstNearest cb r (b :: l) ci) (hbx : b < x)
    (hx : (wordDist (cbAt cb b) r).toNat ≤ (wordDist (cbAt cb x) r).toNat) :
    FirstNearest cb r (b :: x :: l) ci := by
  obtain ⟨hb, hl⟩ := List.forall_mem_cons.mp h
  have hxl := List.forall_mem_cons.mpr
    ⟨⟨hb.left.trans hx, fun hxci => (hb.right (BitVec.lt_trans hbx hxci)).trans_le hx⟩, hl⟩
  exact List.forall_mem_cons.mpr ⟨hb, hxl⟩

/-- The loop over ascending indexes, begun with an index below them and its distance, ends with the first nearest. -/
theorem foldl_searchStep (cb : Vector Word 16) (r : Word) {b : Index} {l : List Index}
    (hl : (b :: l).Pairwise (· < ·)) :
    ∃ ci, l.foldl (searchStep cb r) (b, wordDist (cbAt cb b) r) = (ci, wordDist (cbAt cb ci) r) ∧
      FirstNearest cb r (b :: l) ci := by
  induction l generalizing b with
  | nil => exact ⟨b, rfl, by simp [FirstNearest]⟩
  | cons x l ih =>
    obtain ⟨hb, hxl⟩ := List.pairwise_cons.mp hl
    rw [List.foldl_cons, searchStep]
    split
    next hx =>
      obtain ⟨ci, hfold, hci⟩ := ih hxl
      exact ⟨ci, hfold, hci.cons_of_lt hx⟩
    next hx =>
      obtain ⟨ci, hfold, hci⟩ := ih (hl.sublist ((List.sublist_cons_self x l).cons_cons b))
      exact ⟨ci, hfold, hci.insert_of_le (hb x List.mem_cons_self) (Nat.le_of_not_lt hx)⟩

/-- `nearest` returns the first nearest of all sixteen entries (R131). -/
theorem nearest_spec (cb : Vector Word 16) (r : Word) :
    ∃ ci : Index, nearest cb r = ⟨cbAt cb ci, ci, wordDist (cbAt cb ci) r⟩ ∧
      ∀ j : Index, (wordDist (cbAt cb ci) r).toNat ≤ (wordDist (cbAt cb j) r).toNat ∧
        (j < ci → (wordDist (cbAt cb ci) r).toNat < (wordDist (cbAt cb j) r).toNat) := by
  have hascending : (0 :: searchOrder).Pairwise (· < ·) := by decide
  have hall : ∀ j : Index, j ∈ 0 :: searchOrder := by decide
  obtain ⟨ci, hfold, hci⟩ := foldl_searchStep cb r hascending
  exact ⟨ci, by rw [nearest, hfold], fun j => hci j (hall j)⟩

/-! ## DEC (R131) -/

/-- DEC of a built codebook completes with what the search returns, in the layout of R66. -/
theorem exec_dec {s : State} {b c : Word} {ci : Index} {dm : Distance} (hv : s.cbValid = true)
    (hn : nearest s.cb b = ⟨c, ci, dm⟩) :
    exec (.dec b) s = .next (s.complete (decodeResult c ci dm)) := by
  have hp : preconditionHolds s (.dec b) = true := hv
  rw [exec_of_checks rfl hp, effect, hn]

/-- Settles O39: DEC completes with the first nearest entry. -/
theorem decReturnsTheFirstNearestEntry : Obligations.DecReturnsTheFirstNearestEntry := by
  intro s b hv
  obtain ⟨ci, hn, hci⟩ := nearest_spec s.cb b
  refine ⟨ci, fun j => (hci j).left, fun j => (hci j).right, ?_⟩
  rw [exec_dec hv hn, decodeResult_eq]
  rfl

end Sys2Proof.Machine
end

section
/-! PROOFS. The decoder of a built codebook (42_decoder.md R133 to R135 and R137). Two codewords within distance 1 of
one word would be within distance 2 of each other, below the minimum distance, so at most one is; flipping the bit
the syndrome names shows that one is. The search therefore returns that codeword. -/

namespace Sys2Proof.Machine

/-! ## At most one codeword is near -/

theorem distance_le_one_iff : ∀ {d : Distance}, d.toNat ≤ 1 ↔ d = 0 ∨ d = 1 := by
  decide

theorem wordDist_self (a : Word) : wordDist a a = 0 := (wordDist_eq_zero_iff a a).mpr rfl

theorem eq_of_codewords_within_one {i j : Index} {r : Word} (hi : (wordDist (codeword i) r).toNat ≤ 1)
    (hj : (wordDist (codeword j) r).toNat ≤ 1) : i = j := by
  by_contra hne
  obtain ⟨hmin, -⟩ := minimumDistanceIsThree
  have hthree : 3 ≤ (wordDist (codeword i) (codeword j)).toNat := hmin i j hne
  have hway := wordDist_triangle (codeword i) r (codeword j)
  rw [wordDist_comm r] at hway
  omega

/-- The nearest entry is within distance 1 if any codeword is, and so it is that codeword. -/
theorem nearest_of_within_one {i : Index} {r : Word} (hi : (wordDist (codeword i) r).toNat ≤ 1) :
    nearest codebook r = ⟨codeword i, i, wordDist (codeword i) r⟩ := by
  obtain ⟨ci, hn, hci⟩ := nearest_spec codebook r
  obtain ⟨hle, -⟩ := hci i
  simp only [cbAt_codebook] at hn hle
  obtain rfl := eq_of_codewords_within_one (hle.trans hi) hi
  exact hn

/-- The search undoes an error pattern of weight 0 or 1 (R133). -/
theorem nearest_codeword_xor (i : Index) {e : Word} (he : (popcount7 e).toNat ≤ 1) :
    nearest codebook (codeword i ^^^ e) = ⟨codeword i, i, popcount7 e⟩ := by
  have hdist : wordDist (codeword i) (codeword i ^^^ e) = popcount7 e :=
    (wordDist_comm _ _).trans (wordDist_xor_left _ _)
  rw [nearest_of_within_one (by rwa [hdist]), hdist]

theorem nearest_codeword (i : Index) : nearest codebook (codeword i) = ⟨codeword i, i, 0⟩ := by
  rw [nearest_of_within_one (distance_le_one_iff.mpr (.inl (wordDist_self _))), wordDist_self]

/-- Settles O41: a codeword is an error pattern of weight 0, a flipped bit one of weight 1. -/
theorem singleErrorsAreCorrected : Obligations.SingleErrorsAreCorrected := by
  intro s i e h hv
  have hzero : nearest s.cb (codeword i) = ⟨codeword i, i, 0⟩ := by rw [h.nearest_eq hv, nearest_codeword]
  refine ⟨hzero, ?_, fun he => ?_⟩
  · rw [exec_dec hv hzero, decodeResult_eq]
    simp [State.complete]
  have hone : nearest s.cb (codeword i ^^^ e) = ⟨codeword i, i, 1⟩ := by
    rw [h.nearest_eq hv, nearest_codeword_xor i (distance_le_one_iff.mpr (.inr he)), he]
  refine ⟨hone, ?_⟩
  rw [exec_dec hv hone, decodeResult_eq]
  rfl

/-! ## The syndrome form (R135) -/

/-- A word is its message part followed by its three parity bits (R10). -/
theorem message_append_checks (r : Word) : r.extractLsb' 3 4 ++ r.extractLsb' 0 3 = r :=
  BitVec.extractLsb'_append_extractLsb'_eq_extractLsb' rfl |>.trans BitVec.extractLsb'_eq_self

theorem ofBool_append_eq_checks (r : Word) :
    BitVec.ofBool (r.getLsbD 2) ++ BitVec.ofBool (r.getLsbD 1) ++ BitVec.ofBool (r.getLsbD 0) = r.extractLsb' 0 3 := by
  obtain ⟨h2, h1, h0⟩ := ofBool_append_bits (r.getLsbD 2) (r.getLsbD 1) (r.getLsbD 0)
  ext k hk
  interval_cases k
  · simpa using h0
  · simpa using h1
  · simpa using h2

/-- The syndrome compares the word's parity bits with the parity of its message. -/
theorem syndrome_eq (r : Word) : syndrome r = r.extractLsb' 0 3 ^^^ parity (r.extractLsb' 3 4) := by
  rw [← ofBool_append_eq_checks, parity]
  refine Eq.trans ?_ (xor_ofBool_append _ _ _ _ _ _).symm
  simp [syndrome]

theorem syndrome_xor (v w : Word) : syndrome (v ^^^ w) = syndrome v ^^^ syndrome w := by
  simp only [syndrome_eq, BitVec.extractLsb'_xor, ← parity_xor]
  ac_rfl

/-- A word of syndrome 0 is the codeword of its message. -/
theorem codeword_of_syndrome_eq_zero {r : Word} (h : syndrome r = 0) : codeword (r.extractLsb' 3 4) = r := by
  rw [syndrome_eq] at h
  rw [codeword, ← BitVec.xor_eq_zero_iff.mp h, message_append_checks]

/-- The table of R135: the bit flipped for a syndrome has that syndrome, and it is one bit unless the syndrome is 0. -/
theorem syndromeFlip_spec : ∀ s : BitVec 3,
    syndrome (syndromeFlip s) = s ∧ popcount7 (syndromeFlip s) = if s = 0 then 0 else 1 := by
  decide

/-- The flip cancels the syndrome. -/
theorem codeword_syndromeWord (r : Word) : codeword ((syndromeWord r).extractLsb' 3 4) = syndromeWord r := by
  obtain ⟨hflip, -⟩ := syndromeFlip_spec (syndrome r)
  apply codeword_of_syndrome_eq_zero
  rw [syndromeWord, syndrome_xor, hflip, BitVec.xor_self]
  rfl

theorem wordDist_syndromeWord (r : Word) : wordDist (syndromeWord r) r = if syndrome r = 0 then 0 else 1 := by
  obtain ⟨-, hweight⟩ := syndromeFlip_spec (syndrome r)
  rw [syndromeWord, wordDist_xor_left, hweight]

theorem syndromeWord_within_one (r : Word) : (wordDist (syndromeWord r) r).toNat ≤ 1 := by
  rw [distance_le_one_iff, wordDist_syndromeWord]
  exact ite_eq_or_eq _ _ _

/-- The search and the syndrome form are one function (R135). -/
theorem nearest_eq_syndromeWord (r : Word) :
    nearest codebook r =
      ⟨syndromeWord r, (syndromeWord r).extractLsb' 3 4, if syndrome r = 0 then 0 else 1⟩ := by
  have hone := syndromeWord_within_one r
  rw [← codeword_syndromeWord] at hone
  rw [nearest_of_within_one hone, codeword_syndromeWord, wordDist_syndromeWord]

theorem message_toNat (r : Word) : (r.extractLsb' 3 4).toNat = r.toNat / 2 ^ 3 := by
  have := r.isLt
  rw [BitVec.extractLsb'_toNat, Nat.shiftRight_eq_div_pow]
  omega

/-- Settles O40: the search of a built codebook is the syndrome form, and DEC reports what it returns. -/
theorem decEqualsTheSyndromeForm : Obligations.DecEqualsTheSyndromeForm := by
  intro s r h
  refine ⟨fun hv => ?_, fun hv => ?_⟩
  · have hn := (h.nearest_eq hv r).trans (nearest_eq_syndromeWord r)
    refine ⟨by rw [hn], fun hs => (h.isCodeword_iff hv r).mpr ⟨_, codeword_of_syndrome_eq_zero hs⟩, ?_⟩
    rw [exec_dec hv hn, decodeResult_eq, apply_ite BitVec.toNat, message_toNat]
    rfl
  · have hp : preconditionHolds s (.dec r) = false := hv
    exact ⟨_, by rw [exec_eq, hp], rfl⟩

/-! ## Every word is near one codeword (R134, R137) -/

theorem exists_codeword_within_one (r : Word) : ∃ i : Index, (wordDist (codeword i) r).toNat ≤ 1 :=
  ⟨_, by rw [codeword_syndromeWord]; exact syndromeWord_within_one r⟩

/-- A word near a codeword is in the code exactly when it is that codeword. -/
theorem CodebookInv.isCodeword_iff_of_within_one {s : State} (h : CodebookInv s) (hv : s.cbValid = true) {i : Index}
    {r : Word} (hi : (wordDist (codeword i) r).toNat ≤ 1) : isCodeword s.cb r = true ↔ codeword i = r := by
  rw [h.isCodeword_iff hv]
  constructor
  · rintro ⟨j, rfl⟩
    rw [eq_of_codewords_within_one hi (distance_le_one_iff.mpr (.inl (wordDist_self (codeword j))))]
  · exact fun heq => ⟨i, heq⟩

/-- Settles O42, for the codeword within distance 1, which is the only one and the one the search returns. -/
theorem everyWordIsWithinOneOfOneCodeword : Obligations.EveryWordIsWithinOneOfOneCodeword := by
  intro s r h hv
  obtain ⟨i, hi⟩ := exists_codeword_within_one r
  have honly {j : Index} (hj : (wordDist (codeword j) r).toNat ≤ 1) : j = i := eq_of_codewords_within_one hj hi
  have hdm : (nearest s.cb r).distance = wordDist (codeword i) r := by
    rw [h.nearest_eq hv, nearest_of_within_one hi]
  have hcode := h.isCodeword_iff_of_within_one hv hi
  have hzero : wordDist (codeword i) r = 0 ↔ isCodeword s.cb r = true := (wordDist_eq_zero_iff _ _).trans hcode.symm
  rw [hdm]
  refine ⟨?_, ⟨i, hi, fun _ => honly⟩, distance_le_one_iff.mp hi, hzero⟩
  exact (distance_le_one_iff.mp hi).imp hzero.mp fun hone =>
    ⟨i, hone, fun j hj => honly (distance_le_one_iff.mpr (.inr hj))⟩

/-- The word DEC returns stands in bits 6:0 of its result (R66). -/
theorem decodeResult_word (c : Word) (ci : Index) (dm : Distance) : (decodeResult c ci dm).extractLsb' 0 7 = c := by
  apply BitVec.eq_of_toNat_eq
  have := c.isLt
  rw [decodeResult_eq, BitVec.extractLsb'_toNat, BitVec.toNat_ofNat, Nat.shiftRight_zero]
  omega

/-- Settles O43: DEC returns the codeword within distance 1, and the transmitted one is farther. -/
theorem twoErrorsAreNeverCorrected : Obligations.TwoErrorsAreNeverCorrected := by
  intro s i r h hv hfar
  obtain ⟨j, hj⟩ := exists_codeword_within_one r
  have hcode := h.isCodeword_iff_of_within_one hv hj
  refine ⟨_, exec_dec hv ((h.nearest_eq hv r).trans (nearest_of_within_one hj)), ?_⟩
  rw [State.complete_res, decodeResult_word]
  refine ⟨fun hji => ?_, fun hr => ?_, fun hr => ⟨?_, fun k hk => ?_⟩⟩
  · rw [hji] at hj
    omega
  · exact hcode.mp hr
  · have hne : ¬codeword j = r := by simpa [hr] using hcode
    exact (distance_le_one_iff.mp hj).resolve_left (mt (wordDist_eq_zero_iff _ _).mp hne)
  · rw [eq_of_codewords_within_one (distance_le_one_iff.mpr (.inr hk)) hj]

end Sys2Proof.Machine
end

section
/-! PROOFS. The decode table (42_decoder.md R136). A row is the set of words within distance 1 of its codeword, so every
word stands in the row of the one codeword near it. -/

namespace Sys2Proof.Machine

/-- The mask of wire bit `6 - k`. -/
def bitMask (k : Nat) : Word := BitVec.ofNat 7 (0x40 >>> k)

/-- A codeword and its seven neighbours, by flipped wire bit 6 down to 0. -/
def decodeRow (i : Index) : List Word :=
  codeword i :: (List.range 7).map fun k => codeword i ^^^ bitMask k

/-- The sixteen rows of R136. -/
def decodeTable : List (List Word) := (List.range 16).map fun i => decodeRow (BitVec.ofNat 4 i)

theorem decodeTable_getD {i : Nat} (hi : i < 16) : decodeTable.getD i [] = decodeRow (BitVec.ofNat 4 i) := by
  simp [decodeTable, hi]

theorem decodeRow_getD_zero (i : Index) : (decodeRow i).getD 0 0 = codeword i := rfl

theorem decodeRow_getD_succ (i : Index) {k : Nat} (hk : k < 7) :
    (decodeRow i).getD (k + 1) 0 = codeword i ^^^ bitMask k := by
  simp [decodeRow, hk]

theorem popcount7_bitMask : ∀ k < 7, popcount7 (bitMask k) = 1 := by
  decide

/-- The words of weight at most 1 are 0 and the seven single bits. -/
theorem popcount7_le_one_iff : ∀ e : Word, (popcount7 e).toNat ≤ 1 ↔ e = 0#7 ∨ ∃ k < 7, bitMask k = e := by
  decide

theorem mem_decodeRow_iff (i : Index) (r : Word) : r ∈ decodeRow i ↔ (wordDist (codeword i) r).toNat ≤ 1 := by
  have hflip (v : Word) : codeword i ^^^ v = r ↔ v = codeword i ^^^ r := by
    rw [← BitVec.xor_right_inj (codeword i), ← BitVec.xor_assoc, BitVec.xor_self, BitVec.zero_xor]
  rw [wordDist, popcount7_le_one_iff, BitVec.xor_eq_zero_iff, eq_comm]
  simp only [decodeRow, List.mem_cons, List.mem_map, List.mem_range, hflip]

theorem mem_flatten_decodeTable (r : Word) : r ∈ decodeTable.flatten := by
  obtain ⟨i, hi⟩ := exists_codeword_within_one r
  have hrow : decodeRow i ∈ decodeTable :=
    List.mem_map.mpr ⟨i.toNat, List.mem_range.mpr i.isLt, by rw [BitVec.ofNat_toNat, BitVec.setWidth_eq]⟩
  exact List.mem_flatten.mpr ⟨_, hrow, (mem_decodeRow_iff i r).mpr hi⟩

/-- Settles O38: the table written out is `decodeTable`, whose rows are the words within distance 1 of a codeword. -/
theorem decodeTableIsComplete : Obligations.DecodeTableIsComplete := by
  unfold Obligations.DecodeTableIsComplete
  intro table
  have htable : table = decodeTable := by decide
  rw [htable]
  refine ⟨fun i hi k hk => ?_, fun i hi k hk => ?_, mem_flatten_decodeTable⟩
  · rw [decodeTable_getD hi, decodeRow_getD_zero]
    cases k with
    | zero => exact nearest_codeword _
    | succ k =>
      have hweight : popcount7 (bitMask k) = 1 := popcount7_bitMask k (by omega)
      rw [decodeRow_getD_succ _ (by omega), nearest_codeword_xor _ (distance_le_one_iff.mpr (.inr hweight)), hweight]
      rfl
  · rw [decodeTable_getD hi, decodeRow_getD_zero, decodeRow_getD_succ _ hk]
    rfl

end Sys2Proof.Machine
end

section
/-! PROOFS. The classes of a trial (43_classification.md R150 to R156). The class and the distance depend on the error
pattern alone, because the code is linear, so a transmitted codeword only permutes the received words. -/

namespace Sys2Proof.Machine

/-- Settles O25: the codes of both types, in the order of their names. -/
theorem classAndStatusCodes : Obligations.ClassAndStatusCodes := ⟨rfl, rfl⟩

/-! ## Exactly one class (R153) -/

/-- The four tests of `classify` in their order (R151). -/
theorem classify_cls_cases (cb : Vector Word 16) (t r : Word) :
    (r = t ∧ (classify cb t r).cls = .noError) ∨
    (r ≠ t ∧ wordDist t r = 1#3 ∧ (classify cb t r).cls = .detectedCorrected) ∨
    (r ≠ t ∧ wordDist t r ≠ 1#3 ∧ isCodeword cb r = true ∧ (classify cb t r).cls = .undetected) ∨
    (r ≠ t ∧ wordDist t r ≠ 1#3 ∧ isCodeword cb r = false ∧ (classify cb t r).cls = .detectedUncorrected) := by
  by_cases h0 : r = t
  · exact .inl (by simp [classify, h0])
  by_cases h1 : wordDist t r = 1#3
  · exact .inr (.inl (by simp [classify, h0, h1]))
  cases hr : isCodeword cb r with
  | true => exact .inr (.inr (.inl (by simp [classify, h0, h1, hr])))
  | false => exact .inr (.inr (.inr (by simp [classify, h0, h1, hr])))

/-- The search returns the codewords within distance 1 and no other (R133, R137). -/
theorem nearest_word_eq_iff (i : Index) (r : Word) :
    (nearest codebook r).word = codeword i ↔ (wordDist (codeword i) r).toNat ≤ 1 := by
  obtain ⟨j, hj⟩ := exists_codeword_within_one r
  rw [nearest_of_within_one hj]
  constructor
  · intro hji
    rwa [← hji]
  · intro hi
    rw [eq_of_codewords_within_one hj hi]

/-- Settles O44: at distance 0 or 1 the search returns the transmitted word, and a received codeword is that word. -/
theorem exactlyOneClassConditionHolds : Obligations.ExactlyOneClassConditionHolds := by
  intro s i r h hv t k
  have hnear : (nearest s.cb r).word = t ↔ (wordDist t r).toNat ≤ 1 := by rw [h.nearest_eq hv, nearest_word_eq_iff]
  have hcode (hd : (wordDist t r).toNat ≤ 1) : isCodeword s.cb r = true ↔ t = r :=
    h.isCodeword_iff_of_within_one hv hd
  obtain ⟨h0, hk⟩ | ⟨h0, h1, hk⟩ | ⟨h0, h1, hr, hk⟩ | ⟨h0, h1, hr, hk⟩ := classify_cls_cases s.cb t r
  · have hd : wordDist t r = 0#3 := (wordDist_eq_zero_iff t r).mpr h0.symm
    have hle := distance_le_one_iff.mpr (.inl hd)
    simpa [k, hk, hd, hnear.mpr hle, (hcode hle).mpr h0.symm] using h0
  · have hle := distance_le_one_iff.mpr (.inr h1)
    have hr : isCodeword s.cb r = false := by simpa [Ne.symm h0] using hcode hle
    simp [k, hk, h0, h1, hnear.mpr hle, hr]
  · simp [k, hk, h0, h1, hr]
  · have hlt : ¬(wordDist t r).toNat ≤ 1 := by
      rw [distance_le_one_iff, not_or]
      exact ⟨mt (wordDist_eq_zero_iff t r).mp (Ne.symm h0), h1⟩
    have htwo : 2 ≤ (wordDist t r).toNat := by omega
    simp [k, hk, h0, h1, hr, mt hnear.mp hlt, htwo]

/-! ## The class of an error pattern (R154) -/

/-- The class R154 gives an error pattern. -/
def patternClass (e : Word) : TrialClass :=
  if e = 0 then .noError
  else if popcount7 e = 1 then .detectedCorrected
  else if ∃ j : Index, codeword j = e then .undetected
  else .detectedUncorrected

/-- The code is linear, so adding a codeword keeps a word in the code or outside it (R109). -/
theorem exists_codeword_eq_xor (i : Index) (r : Word) :
    (∃ j : Index, codeword j = codeword i ^^^ r) ↔ ∃ j : Index, codeword j = r := by
  constructor
  · rintro ⟨j, hj⟩
    exact ⟨i ^^^ j, by rw [← codeword_xor, hj, xor_cancel_left]⟩
  · rintro ⟨j, rfl⟩
    exact ⟨i ^^^ j, (codeword_xor i j).symm⟩

/-- The class of a trial is that of its error pattern (R154). -/
theorem CodebookInv.classify_cls {s : State} (h : CodebookInv s) (hv : s.cbValid = true) (i : Index) (r : Word) :
    (classify s.cb (codeword i) r).cls = patternClass (codeword i ^^^ r) := by
  have hzero : r = codeword i ↔ codeword i ^^^ r = 0 := eq_comm.trans BitVec.xor_eq_zero_iff.symm
  have hcode : isCodeword s.cb r = true ↔ ∃ j : Index, codeword j = codeword i ^^^ r :=
    (h.isCodeword_iff hv r).trans (exists_codeword_eq_xor i r).symm
  exact if_congr hzero rfl (if_congr Iff.rfl rfl (if_congr hcode rfl rfl))

/-- The whole answer of the classifier of a built codebook (R135, R154). -/
theorem CodebookInv.classify_eq {s : State} (h : CodebookInv s) (hv : s.cbValid = true) (i : Index) (r : Word) :
    classify s.cb (codeword i) r =
      ⟨patternClass (codeword i ^^^ r), popcount7 (codeword i ^^^ r), syndromeWord r,
        (syndromeWord r).extractLsb' 3 4⟩ :=
  calc classify s.cb (codeword i) r
    _ = ⟨(classify s.cb (codeword i) r).cls, popcount7 (codeword i ^^^ r), (nearest s.cb r).word,
          (nearest s.cb r).index⟩ := rfl
    _ = _ := by rw [h.classify_cls hv, h.nearest_eq hv, nearest_eq_syndromeWord]

/-! ## CLS (R152) -/

theorem exec_cls {s : State} {a : Word} (ha : a.toNat ≤ 15) (hv : s.cbValid = true) (r : Word) :
    exec (.cls a r) s = .next (s.complete (s.trial a r).result) :=
  exec_of_checks ((indexInRange_iff a).mpr ha) hv

theorem Trial.result_eq (x : Trial) :
    x.result = BitVec.ofNat 32 (x.index.toNat * 2 ^ 24 + x.word.toNat * 2 ^ 16 + x.distance.toNat * 2 ^ 8 +
      x.cls.code.toNat) :=
  classifyResult_eq _ _ _ _

/-- The class code of an error pattern as R154 counts the cases. -/
theorem patternClass_code_toNat (e : Word) :
    (patternClass e).code.toNat =
      if e = 0 then 0 else if popcount7 e = 1 then 1 else if ∃ j : Index, codeword j = e then 2 else 3 := by
  simp only [patternClass, apply_ite TrialClass.code, apply_ite BitVec.toNat]
  rfl

/-- Settles O45: the class and distance are the error pattern's, the decoded word is that of the syndrome form. -/
theorem clsReportsTheErrorPattern : Obligations.ClsReportsTheErrorPattern := by
  intro s a r h hv ha e k
  have htrial : s.trial a r = ⟨patternClass e, popcount7 e, syndromeWord r, (syndromeWord r).extractLsb' 3 4⟩ := by
    rw [State.trial, h hv]
    exact h.classify_eq hv (indexOf a) r
  rw [exec_cls ha hv, Trial.result_eq, htrial, patternClass_code_toNat, message_toNat]
  rfl

/-! ## How many received words have each distance and class (R155, R156) -/

/-- The 128 received words. -/
def allWords : List Word := (List.range 128).map (BitVec.ofNat 7)

theorem mem_allWords (r : Word) : r ∈ allWords :=
  List.mem_map.mpr ⟨r.toNat, List.mem_range.mpr r.isLt, by rw [BitVec.ofNat_toNat, BitVec.setWidth_eq]⟩

theorem nodup_allWords : allWords.Nodup := by
  refine List.Nodup.map_on (fun j hj k hk hjk => ?_) List.nodup_range
  have hnat := congrArg BitVec.toNat hjk
  rwa [BitVec.toNat_ofNat, BitVec.toNat_ofNat, Nat.mod_eq_of_lt (List.mem_range.mp hj),
    Nat.mod_eq_of_lt (List.mem_range.mp hk)] at hnat

theorem map_xor_allWords_perm (t : Word) : (allWords.map (t ^^^ ·)).Perm allWords := by
  have hnodup : (allWords.map (t ^^^ ·)).Nodup :=
    nodup_allWords.map (xor_right_involutive t).injective
  refine (List.perm_ext_iff_of_nodup hnodup nodup_allWords).mpr fun r => iff_of_true ?_ (mem_allWords r)
  exact List.mem_map.mpr ⟨t ^^^ r, mem_allWords _, xor_cancel_left t r⟩

/-- A count of trials by class and distance is a count of error patterns: adding the codeword permutes the words. -/
theorem CodebookInv.countP_classify {s : State} (h : CodebookInv s) (hv : s.cbValid = true) (i : Index)
    (p : TrialClass → Distance → Bool) :
    allWords.countP (fun r => p (classify s.cb (codeword i) r).cls (classify s.cb (codeword i) r).distance) =
      allWords.countP fun e => p (patternClass e) (popcount7 e) := by
  rw [← (map_xor_allWords_perm (codeword i)).countP_eq, List.countP_map]
  simp only [Function.comp_def, h.classify_eq hv, xor_cancel_left]

/-- Settles O46: the error patterns of each weight and class are counted. -/
theorem classesByDistanceTable : Obligations.ClassesByDistanceTable := by
  intro s i h hv words count
  have hcount (p : TrialClass → Distance → Bool) :
      count (fun x => p x.cls x.distance) = allWords.countP fun e => p (patternClass e) (popcount7 e) :=
    h.countP_classify hv i p
  refine ⟨fun d => ?_, ?_, fun d => ?_⟩
  · rw [hcount fun _ x => x = d, hcount fun k x => x = d && k = .noError,
      hcount fun k x => x = d && k = .detectedCorrected, hcount fun k x => x = d && k = .undetected,
      hcount fun k x => x = d && k = .detectedUncorrected]
    revert d
    decide +kernel
  · rw [hcount fun _ _ => true, hcount fun k _ => k = .noError,
      hcount fun k _ => k = .detectedCorrected, hcount fun k _ => k = .undetected,
      hcount fun k _ => k = .detectedUncorrected]
    decide +kernel
  · rw [hcount fun k x => x = d && k = .undetected]
    revert d
    decide +kernel

/-- Settles O47: the patterns 0x16 and 0x0F are codewords of weight 3 and 4, the patterns 0x07 and 0x17 are none. -/
theorem classIsNotAFunctionOfDistance : Obligations.ClassIsNotAFunctionOfDistance := by
  intro s i d h hv hd
  obtain ⟨e, e', he, he', hcode, hcode'⟩ : ∃ e e' : Word, popcount7 e = d ∧ popcount7 e' = d ∧
      (patternClass e).code = 2 ∧ (patternClass e').code = 3 := by
    rcases hd with rfl | rfl
    · exact ⟨0x16, 0x07, by decide⟩
    · exact ⟨0x0F, 0x17, by decide⟩
  refine ⟨codeword i ^^^ e, codeword i ^^^ e', ?_, ?_, ?_, ?_⟩
  · rw [wordDist, xor_cancel_left, he]
  · rw [wordDist, xor_cancel_left, he']
  · rw [h.classify_cls hv, xor_cancel_left, hcode]
  · rw [h.classify_cls hv, xor_cancel_left, hcode']

end Sys2Proof.Machine
end

section
/-! PROOFS. The counters (43_classification.md R160 to R171). A completed CLSACC is one trial, whose class and distance
are tied to each other by the weights of the codewords; counting such a trial keeps the relations of R161, as long as
no counter wraps. -/

namespace Sys2Proof.Machine

/-! ## Reading and clearing (R165, R167, R169) -/

/-- Settles O49: the counters are cleared, and a cleared state is what clearing it again leaves. -/
theorem hclrClearsTheCounters : Obligations.HclrClearsTheCounters :=
  fun s => ⟨s.clearCounters.complete 0, rfl, ⟨s.cntAt_clearCounters, s.dhAt_clearCounters⟩, rfl, rfl⟩

theorem exec_rdcls {a : Word} (ha : a.toNat ≤ 3) (s : State) :
    exec (.rdcls a) s = .next (s.complete (s.cntAt (classOf a))) :=
  exec_of_checks ((classInRange_iff a).mpr ha) rfl

theorem exec_rddh {a : Word} (ha : a.toNat ≤ 7) (s : State) :
    exec (.rddh a) s = .next (s.complete (s.dhAt (distanceOf a))) :=
  exec_of_checks ((distanceInRange_iff a).mpr ha) rfl

/-- Settles O50: the class counter an operand in range selects is the operand's own. -/
theorem rdclsReturnsTheCounter : Obligations.RdclsReturnsTheCounter := by
  intro s a ha
  have hread : s.cntAt (classOf a) = s.cnt[a.toNat] := by simp [State.cntAt, classOf_toNat a (by omega)]
  rw [exec_rdcls (by omega), hread]
  rfl

/-- Settles O51: the histogram counter an operand in range selects is the operand's own. -/
theorem rddhReturnsTheCounter : Obligations.RddhReturnsTheCounter := by
  intro s a ha
  have hread : s.dhAt (distanceOf a) = s.dh[a.toNat] := by simp [State.dhAt, distanceOf_toNat a (by omega)]
  rw [exec_rddh (by omega), hread]
  rfl

/-! ## Counting one trial (R160, R171) -/

theorem toNat_cntAt_countClass (s : State) (k j : BitVec 2) :
    ((s.countClass k).cntAt j).toNat = if j = k then ((s.cntAt j).toNat + 1) % 2 ^ 32 else (s.cntAt j).toNat := by
  rw [State.cntAt_countClass, apply_ite BitVec.toNat, BitVec.toNat_add]
  rfl

theorem toNat_dhAt_countDistance (s : State) (d j : Distance) :
    ((s.countDistance d).dhAt j).toNat = if j = d then ((s.dhAt j).toNat + 1) % 2 ^ 32 else (s.dhAt j).toNat := by
  rw [State.dhAt_countDistance, apply_ite BitVec.toNat, BitVec.toNat_add]
  rfl

theorem exec_clsacc {s : State} {a : Word} (ha : a.toNat ≤ 15) (hv : s.cbValid = true) (r : Word) :
    exec (.clsacc a r) s = .next (((s.countClass (s.trial a r).cls.code).countDistance (s.trial a r).distance).complete
      (s.trial a r).result) :=
  exec_of_checks ((indexInRange_iff a).mpr ha) hv

/-- Settles O48: CLSACC completes with CLS's result and the two counts of its trial. -/
theorem clsaccCountsItsTrial : Obligations.ClsaccCountsItsTrial := by
  intro s a r ha hv x
  have hle : a.toNat ≤ 15 := by omega
  have htrial : s.trial a r = x := by rw [State.trial, cbAt_indexOf _ _ ha]
  rw [exec_clsacc hle hv, exec_cls hle hv, htrial]
  exact ⟨_, rfl, toNat_cntAt_countClass s _, toNat_dhAt_countDistance _ _, rfl, rfl, Trial.result_eq x⟩

/-! ## The class and the distance of a trial (R155) -/

/-- The classes and distances that occur together, the entries of the table of R155 that are not 0. -/
def ClassMeetsDistance (k : BitVec 2) (d : Distance) : Prop :=
  (k = 0#2 ∧ d = 0#3) ∨ (k = 1#2 ∧ d = 1#3) ∨ (k = 2#2 ∧ (d = 3#3 ∨ d = 4#3 ∨ d = 7#3)) ∨
    (k = 3#2 ∧ (d = 2#3 ∨ d = 3#3 ∨ d = 4#3 ∨ d = 5#3 ∨ d = 6#3))

/-- The weights of R107 that are not 0. -/
theorem popcount7_codeword_of_ne_zero : ∀ {j : Index}, codeword j ≠ 0 →
    popcount7 (codeword j) = 3 ∨ popcount7 (codeword j) = 4 ∨ popcount7 (codeword j) = 7 := by
  decide

/-- The one word of weight 7 is a codeword, that of message 15. -/
theorem codeword_of_popcount7_eq_seven : ∀ e : Word, popcount7 e = 7#3 → codeword 15 = e := by
  decide

theorem patternClass_meets_popcount7 (e : Word) : ClassMeetsDistance (patternClass e).code (popcount7 e) := by
  unfold patternClass
  split
  next h0 => exact .inl ⟨rfl, (popcount7_eq_zero_iff e).mpr h0⟩
  next h0 =>
  split
  next h1 => exact .inr (.inl ⟨rfl, h1⟩)
  next h1 =>
  split
  next hcode =>
    obtain ⟨j, rfl⟩ := hcode
    exact .inr (.inr (.inl ⟨rfl, popcount7_codeword_of_ne_zero h0⟩))
  next hcode =>
    have hzero := mt (popcount7_eq_zero_iff e).mp h0
    have hseven : popcount7 e ≠ 7#3 := fun h7 => hcode ⟨15, codeword_of_popcount7_eq_seven e h7⟩
    have hrest : ∀ d : Distance, d ≠ 0#3 → d ≠ 1#3 → d ≠ 7#3 → d = 2 ∨ d = 3 ∨ d = 4 ∨ d = 5 ∨ d = 6 := by
      decide
    exact .inr (.inr (.inr ⟨rfl, hrest _ hzero h1 hseven⟩))

theorem CodebookInv.trial_class_meets_distance {s : State} (h : CodebookInv s) (hv : s.cbValid = true) (a b : Word) :
    ClassMeetsDistance (s.trial a b).cls.code (s.trial a b).distance := by
  rw [State.trial, h hv, h.classify_eq hv]
  exact patternClass_meets_popcount7 _

/-! ## The counter relations without a wrap (R161, R162) -/

/-- The relations of R161 between `n` trials and the two sets of counts, but for those that follow from these. -/
def CounterRelations (n : Nat) (c : BitVec 2 → Nat) (d : Distance → Nat) : Prop :=
  c 0 + c 1 + c 2 + c 3 = n ∧ d 0 + d 1 + d 2 + d 3 + d 4 + d 5 + d 6 + d 7 = n ∧
  c 0 = d 0 ∧ c 1 = d 1 ∧ d 7 ≤ c 2 ∧ d 2 + d 5 + d 6 ≤ c 3

/-- Every count is a summand of the number of trials. -/
theorem CounterRelations.count_le {n : Nat} {c : BitVec 2 → Nat} {d : Distance → Nat} (h : CounterRelations n c d) :
    (∀ k, c k ≤ n) ∧ ∀ j, d j ≤ n := by
  obtain ⟨hc, hd, -⟩ := h
  refine ⟨fun k => ?_, fun j => ?_⟩
  · have hk : k = 0 ∨ k = 1 ∨ k = 2 ∨ k = 3 := by revert k; decide
    rcases hk with rfl | rfl | rfl | rfl <;> omega
  · have hj : j = 0 ∨ j = 1 ∨ j = 2 ∨ j = 3 ∨ j = 4 ∨ j = 5 ∨ j = 6 ∨ j = 7 := by revert j; decide
    rcases hj with rfl | rfl | rfl | rfl | rfl | rfl | rfl | rfl <;> omega

/-- One more trial adds one on both sides of an equation, or on the larger side of an inequality. -/
theorem CounterRelations.add_trial {n : Nat} {c : BitVec 2 → Nat} {d : Distance → Nat} (h : CounterRelations n c d)
    {k : BitVec 2} {j : Distance} (hkj : ClassMeetsDistance k j) :
    CounterRelations (n + 1) (fun k' => if k' = k then c k' + 1 else c k')
      fun j' => if j' = j then d j' + 1 else d j' := by
  unfold CounterRelations at h ⊢
  obtain ⟨rfl, rfl⟩ | ⟨rfl, rfl⟩ | ⟨rfl, rfl | rfl | rfl⟩ | ⟨rfl, rfl | rfl | rfl | rfl | rfl⟩ := hkj
  all_goals
    simp only [BitVec.ofNat_eq_ofNat, BitVec.reduceEq, if_true, if_false] at h ⊢
    omega

/-- The counters of a state stand in the relations of R161 for `n` trials. -/
def State.HasCounted (n : Nat) (s : State) : Prop :=
  CounterRelations n (fun k => (s.cntAt k).toNat) fun d => (s.dhAt d).toNat

theorem State.hasCounted_of_clear {s : State} (h : CountersClear s) : s.HasCounted 0 := by
  obtain ⟨hcnt, hdh⟩ := h
  simp [State.HasCounted, CounterRelations, hcnt, hdh]

theorem State.HasCounted.congr {n : Nat} {s t : State} (h : s.HasCounted n) (hcnt : t.cnt = s.cnt)
    (hdh : t.dh = s.dh) : t.HasCounted n := by
  simpa only [State.HasCounted, State.cntAt_congr s t hcnt, State.dhAt_congr s t hdh] using h

/-- Counting one more trial: no counter is above `n`, so none wraps. -/
theorem State.HasCounted.count {n : Nat} {s : State} (h : s.HasCounted n) (hn : n + 1 < 2 ^ 32) {k : BitVec 2}
    {d : Distance} (hkd : ClassMeetsDistance k d) : ((s.countClass k).countDistance d).HasCounted (n + 1) := by
  obtain ⟨hc, hd⟩ := CounterRelations.count_le h
  have hcnt (j : BitVec 2) :
      ((s.countClass k).cntAt j).toNat = if j = k then (s.cntAt j).toNat + 1 else (s.cntAt j).toNat := by
    have := hc j
    rw [toNat_cntAt_countClass, Nat.mod_eq_of_lt (by omega)]
  have hdh (j : Distance) : (((s.countClass k).countDistance d).dhAt j).toNat =
      if j = d then (s.dhAt j).toNat + 1 else (s.dhAt j).toNat := by
    have := hd j
    rw [toNat_dhAt_countDistance, State.dhAt_countClass, Nat.mod_eq_of_lt (by omega)]
  simpa only [State.HasCounted, State.cntAt_countDistance, hcnt, hdh] using CounterRelations.add_trial h hkd

/-! ## Runs of words -/

theorem fieldOp_of_decode {w : Cmd} {i : Instr} (h : decode w = .command i) : fieldOp w = i.opcode := by
  rw [← encode_of_decode h, encode, fieldOp_commandWord]

/-- A word other than HCLR's is a CLSACC that completes, and has its effect, or leaves the counters. -/
theorem perform_trial_cases {w : Cmd} {s t : State} (h : perform w s = .next t) (hw : w ≠ 0x80000000#32) :
    ((fieldOp w = 0x7#4 ∧ t.stat = .ok) ∧ s.cbValid = true ∧ ∃ a b, t = effect s (.clsacc a b)) ∨
    (¬(fieldOp w = 0x7#4 ∧ t.stat = .ok) ∧ t.cnt = s.cnt ∧ t.dh = s.dh) := by
  obtain ⟨e, rfl⟩ | ⟨i, hi, hp, rfl⟩ := perform_result h
  · exact .inr ⟨fun ⟨_, hok⟩ => e.status_ne_ok hok, rfl, rfl⟩
  have hop := fieldOp_of_decode hi
  cases i with
  | clsacc a b => exact .inl ⟨⟨hop, rfl⟩, hp, a, b, rfl⟩
  | hclr => exact absurd (encode_of_decode hi).symm hw
  | build | enc | lookup | dist | dec | cls | rdcls | rddh | rdstat =>
    exact .inr ⟨fun ⟨hseven, _⟩ => absurd (hop.symm.trans hseven) (by simp [Instr.opcode]), rfl, rfl⟩

theorem perform_keeps_codebookInv {w : Cmd} {s t : State} (h : perform w s = .next t) (hs : CodebookInv s) :
    CodebookInv t := by
  obtain ⟨e, rfl⟩ | ⟨i, -, -, rfl⟩ := perform_result h
  · exact hs
  · exact codebookInv_effect hs i

/-- The trials a word that leaves the state `t` adds to the count of R161. -/
def trialsOf (w : Cmd) (t : State) : Nat := if fieldOp w = 0x7#4 ∧ t.stat = .ok then 1 else 0

theorem completedTrials_cons {w : Cmd} {ws : List Cmd} {s t : State} (h : perform w s = .next t) :
    completedTrials (w :: ws) s = trialsOf w t + completedTrials ws t := by
  rw [completedTrials, h, trialsOf]

theorem State.HasCounted.perform {n : Nat} {w : Cmd} {s t : State} (h : s.HasCounted n) (hcb : CodebookInv s)
    (hw : w ≠ 0x80000000#32) (ht : perform w s = .next t) (hn : n + trialsOf w t < 2 ^ 32) :
    t.HasCounted (n + trialsOf w t) := by
  obtain ⟨htrial, hv, a, b, rfl⟩ | ⟨hnone, hcnt, hdh⟩ := perform_trial_cases ht hw
  · rw [trialsOf, if_pos htrial] at hn ⊢
    exact h.count hn (hcb.trial_class_meets_distance hv a b)
  · rw [trialsOf, if_neg hnone]
    exact h.congr hcnt hdh

theorem State.HasCounted.runCommands {n : Nat} {ws : List Cmd} {s t : State} (h : s.HasCounted n)
    (hcb : CodebookInv s) (hws : 0x80000000#32 ∉ ws) (ht : runCommands ws s = .next t)
    (hn : n + completedTrials ws s < 2 ^ 32) : t.HasCounted (n + completedTrials ws s) := by
  induction ws generalizing n s with
  | nil =>
    obtain rfl := Host.Outcome.next.inj ht
    exact h
  | cons w ws ih =>
    obtain ⟨u, hu, hrun⟩ := runCommands_cons_eq_next.mp ht
    rw [completedTrials_cons hu, ← Nat.add_assoc] at hn ⊢
    have hstep := h.perform hcb (List.ne_of_not_mem_cons hws).symm hu (by omega)
    exact ih hstep (perform_keeps_codebookInv hu hcb) (List.not_mem_of_not_mem_cons hws) hrun hn

/-- Settles O54: the relations hold with no trial counted, every word of the run keeps them, and the two relations
left out follow from the others. -/
theorem counterRelationsWithoutWrap : Obligations.CounterRelationsWithoutWrap := by
  intro ws s t hcb hclear hws ht hn n c d
  have hrel : CounterRelations (0 + n) c d := (State.hasCounted_of_clear hclear).runCommands hcb hws ht (by omega)
  rw [Nat.zero_add] at hrel
  obtain ⟨hcnt, hdh, h0, h1, h7, h256⟩ := hrel
  exact ⟨hcnt, hdh, h0, h1, by omega, h7, h256, by omega⟩

end Sys2Proof.Machine
end

section
/-! PROOFS. The errors (60_exceptions.md R202 to R206). The first error of a word is read off its number: a cause of R67
makes it ILLEGAL, and a word that spells a command fails the command's own two checks in their order. Neither the checks
nor an effect beside that of RDSTAT reads the error record, and every word answers a state. -/

namespace Sys2Proof.Machine

/-! ## Every step and every run answers a state (R206, R231) -/

theorem step_answers_next (s : State) : ∃ t, step s = .next t := by
  obtain ⟨-, hs⟩ | ⟨-, -, hs⟩ | ⟨-, -, hs⟩ := step_cases s
  · exact ⟨_, hs⟩
  · exact ⟨_, hs⟩
  · rw [hs]
    exact perform_answers_next _ _

theorem runCommands_answers_next (ws : List Cmd) (s : State) : ∃ t, runCommands ws s = .next t := by
  induction ws generalizing s with
  | nil => exact ⟨s, rfl⟩
  | cons w ws ih =>
    obtain ⟨u, hu⟩ := perform_answers_next w s
    obtain ⟨t, ht⟩ := ih u
    exact ⟨t, runCommands_cons_eq_next.mpr ⟨u, hu, ht⟩⟩

/-- Settles O15, over the kinds of edge and by induction on the words of the run. -/
theorem everyStepAndEveryRunAnswersNext : Obligations.EveryStepAndEveryRunAnswersNext :=
  ⟨step_answers_next, runCommands_answers_next⟩

/-! ## PRECONDITION (R202) -/

theorem exec_of_precondition_fails {i : Instr} {s : State} (hr : operandInRange i = true)
    (hp : preconditionHolds s i = false) : exec i s = .next (s.raiseError .precondition) := by
  rw [exec_eq, hr, hp, checked_precondition]

/-- Settles O19: each operand passes its range check, and the precondition is the state of `CB_VALID`. -/
theorem codebookStateRaisesPrecondition : Obligations.CodebookStateRaisesPrecondition := by
  intro s a b raised
  have hraise {i : Instr} (hr : operandInRange i = true) (hp : preconditionHolds s i = false) :
      exec i s = .next raised := exec_of_precondition_fails hr hp
  refine ⟨fun hv => ⟨hraise rfl hv, fun ha => ?_⟩, fun hv => hraise rfl (by simp [preconditionHolds, hv])⟩
  have hindex : indexInRange a = true := (indexInRange_iff a).mpr ha
  exact ⟨hraise hindex hv, hraise hindex hv, hraise hindex hv⟩

/-! ## The first error of a word (R65, R204) -/

/-- A cause of R67 comes before every other error. -/
theorem firstError_of_cause {w : Cmd} (h : ReservedOpcode w ∨ ReservedBits w ∨ UnusedOperandSet w) (v : Bool) :
    firstError w v = some .illegal := by
  obtain ⟨hop, hbits, hunused⟩ := illegalCauses_toNat w
  by_cases h1 : ReservedOpcode w
  · exact if_pos (hop.mp h1)
  by_cases h2 : ReservedBits w
  · exact (if_neg (mt hop.mpr h1)).trans (if_pos (hbits.mp h2))
  have h3 : UnusedOperandSet w := (h.resolve_left h1).resolve_left h2
  exact (if_neg (mt hop.mpr h1)).trans ((if_neg (mt hbits.mpr h2)).trans (if_pos (hunused.mp h3)))

/-- The operand A of a command as a number cut out of its word (R61). -/
theorem operandA_of_decode {w : Cmd} {i : Instr} (h : decode w = .command i) :
    w.toNat / 2 ^ 8 % 2 ^ 7 = i.operandA.toNat := by
  have ha := i.operandA.isLt
  have hb := i.operandB.isLt
  rw [← encode_of_decode h, encode, commandWord_toNat]
  omega

/-- The limits of R62 by opcode are the range checks of the commands. -/
theorem limitA_le_operandA_iff (i : Instr) : limitA i.opcode.toNat ≤ i.operandA.toNat ↔ operandInRange i = false := by
  have ha := i.operandA.isLt
  cases i with
  | build | dist | dec | hclr | rdstat =>
    simpa [limitA, Instr.opcode, operandInRange] using ha
  | enc a | lookup a | cls a | clsacc a =>
    simp [limitA, Instr.opcode, Instr.operandA, operandInRange, indexInRange]
  | rdcls a => simp [limitA, Instr.opcode, Instr.operandA, operandInRange, classInRange]
  | rddh a => simp [limitA, Instr.opcode, Instr.operandA, operandInRange, distanceInRange]

/-- The preconditions of R202 by opcode are those of the commands. -/
theorem preconditionHolds_eq_false_iff (s : State) (i : Instr) :
    preconditionHolds s i = false ↔
      (i.opcode.toNat = 1 ∧ s.cbValid = true) ∨
      ((i.opcode.toNat = 3 ∨ i.opcode.toNat = 5 ∨ i.opcode.toNat = 6 ∨ i.opcode.toNat = 7) ∧ s.cbValid = false) := by
  cases i <;> simp [preconditionHolds, Instr.opcode]

/-- The first error of a word that spells a command is the first of the command's checks to fail. -/
theorem firstError_of_command {w : Cmd} {i : Instr} (h : decode w = .command i) (s : State) :
    firstError w s.cbValid =
      if operandInRange i = false then some .invalidInput
      else if preconditionHolds s i = false then some .precondition
      else none := by
  have hcause : ¬ (ReservedOpcode w ∨ ReservedBits w ∨ UnusedOperandSet w) := fun hc => by
    simpa [h] using (decode_eq_illegal_iff_cause w _).mpr ⟨hc, rfl⟩
  simp only [not_or] at hcause
  obtain ⟨h1, h2, h3⟩ := hcause
  obtain ⟨hop, hbits, hunused⟩ := illegalCauses_toNat w
  calc firstError w s.cbValid
    _ = if limitA (w.toNat / 2 ^ 28) ≤ w.toNat / 2 ^ 8 % 2 ^ 7 then some .invalidInput
        else if w.toNat / 2 ^ 28 = 1 ∧ s.cbValid = true then some .precondition
        else if (w.toNat / 2 ^ 28 = 3 ∨ w.toNat / 2 ^ 28 = 5 ∨ w.toNat / 2 ^ 28 = 6 ∨ w.toNat / 2 ^ 28 = 7) ∧
          s.cbValid = false then some .precondition
        else none :=
      (if_neg (mt hop.mpr h1)).trans ((if_neg (mt hbits.mpr h2)).trans (if_neg (mt hunused.mpr h3)))
    _ = _ := by
      rw [opcode_of_decode h, operandA_of_decode h]
      simp only [limitA_le_operandA_iff, preconditionHolds_eq_false_iff, ite_or]

/-- Performing a word raises its first error, or has the effect of a command (R203, R204). -/
theorem perform_firstError_cases (w : Cmd) (s : State) :
    (∃ e, firstError w s.cbValid = some e ∧ perform w s = .next (s.raiseError e)) ∨
    (firstError w s.cbValid = none ∧ ∃ i, perform w s = .next (effect s i)) := by
  obtain ⟨why, hw, hp⟩ | ⟨i, hi, hp⟩ := perform_eq w s
  · exact .inl ⟨_, firstError_of_cause ((decode_eq_illegal_iff_cause w why).mp hw).1 _, hp⟩
  rw [hp, exec_eq, firstError_of_command hi]
  obtain ⟨hr, he⟩ | ⟨hr, hpre, he⟩ | ⟨hr, hpre, he⟩ :=
    checked_cases (operandInRange i) (preconditionHolds s i) s (effect s i)
  · exact .inl ⟨.invalidInput, by simp [hr], by rw [he]⟩
  · exact .inl ⟨.precondition, by simp [hr, hpre], by rw [he]⟩
  · exact .inr ⟨by simp [hr, hpre], i, by rw [he]⟩

/-- Settles O17: the four writes are those of `State.raiseError`, and an effect keeps the error record. -/
theorem firstErrorIsReportedAndRecorded : Obligations.FirstErrorIsReportedAndRecorded := by
  intro w s
  obtain ⟨e, he, hp⟩ | ⟨hnone, i, hp⟩ := perform_firstError_cases w s
  · refine ⟨fun e' he' => ?_, fun hnone => ?_⟩
    · obtain rfl := Option.some.inj (he.symm.trans he')
      exact hp
    · simp [he] at hnone
  · exact ⟨fun e he => by simp [hnone] at he, fun _ => ⟨_, hp, effect_stat s i, effect_errorRecord s i⟩⟩

/-! ## Commands and the error record (R206) -/

/-- The same block with another error record. -/
def State.withErrorRecord (s : State) (fault : Bool) (fcode : Status) : State :=
  { s with fault := fault, fcode := fcode }

/-- Two states differ at most in the error record. -/
def SameButErrorRecord (s t : State) : Prop := t = s.withErrorRecord t.fault t.fcode

/-- An effect beside that of RDSTAT neither reads nor writes the error record. -/
theorem effect_withErrorRecord {i : Instr} (hi : i ≠ .rdstat) (s : State) (fault : Bool) (fcode : Status) :
    effect (s.withErrorRecord fault fcode) i = (effect s i).withErrorRecord fault fcode := by
  cases i with
  | rdstat => exact absurd rfl hi
  | build | enc | lookup | dist | dec | cls | clsacc | hclr | rdcls | rddh => rfl

theorem checked_withErrorRecord (inRange precondition : Bool) (s t : State) (fault : Bool) (fcode : Status) :
    SameButErrorRecord (checked inRange precondition s t)
      (checked inRange precondition (s.withErrorRecord fault fcode) (t.withErrorRecord fault fcode)) := by
  cases inRange with
  | false => rfl
  | true => cases precondition <;> rfl

/-- Settles O22: the checks read no error record, and an effect does the same whatever it holds. -/
theorem commandsIgnoreTheErrorRecord : Obligations.CommandsIgnoreTheErrorRecord := by
  intro i s t f c hi h
  rw [exec_eq] at h
  obtain rfl := Host.Outcome.next.inj h
  refine ⟨_, exec_eq i (s.withErrorRecord f c), ?_⟩
  have hp : preconditionHolds (s.withErrorRecord f c) i = preconditionHolds s i := preconditionHolds_congr rfl i
  rw [hp, effect_withErrorRecord hi]
  exact checked_withErrorRecord _ _ s _ f c

end Sys2Proof.Machine
end

section
/-! PROOFS. A reset edge (70_reset_and_hazards.md R220), and what `FAULT` tells of a run (R231). -/

namespace Sys2Proof.Machine

/-- Settles O11, from what a reset edge leaves and the ports it samples. -/
theorem resetEdgeGivesTheResetState : Obligations.ResetEdgeGivesTheResetState := by
  intro s p rest h hrst
  obtain ⟨hp, hs⟩ := sampling_cons s p rest h
  obtain ⟨t, ht⟩ := step_answers_next s
  rw [ht, step_of_rst ht (by rw [hp, hrst]), hs]
  rfl

/-- A word that leaves the state `t` counts as failed exactly when `STAT` is not OK there (R30, R65). -/
theorem failedCommands_cons {w : Cmd} {ws : List Cmd} {s t : State} (h : perform w s = .next t) :
    failedCommands (w :: ws) s = (if t.stat = .ok then 0 else 1) + failedCommands ws t := by
  rw [failedCommands, h]

/-- `FAULT` after a word is set where it was set before or the word failed (R31). -/
theorem perform_fault_iff {w : Cmd} {s t : State} (h : perform w s = .next t) :
    t.fault = true ↔ s.fault = true ∨ t.stat ≠ .ok := by
  obtain ⟨hstat, hf, -⟩ | ⟨hok, hf, -⟩ := perform_errorRecord h
  · simp [hstat, hf]
  · simp [hok, hf]

/-- `FAULT` after a run is set where it was set before or some word of the run failed. -/
theorem runCommands_fault_iff {ws : List Cmd} {s t : State} (h : runCommands ws s = .next t) :
    t.fault = true ↔ s.fault = true ∨ 0 < failedCommands ws s := by
  induction ws generalizing s with
  | nil =>
    obtain rfl := Host.Outcome.next.inj h
    simp [failedCommands]
  | cons w ws ih =>
    obtain ⟨u, hu, hrun⟩ := runCommands_cons_eq_next.mp h
    have hcount : 0 < failedCommands (w :: ws) s ↔ u.stat ≠ .ok ∨ 0 < failedCommands ws u := by
      rw [failedCommands_cons hu]
      split <;> simp [*]
    rw [ih hrun, perform_fault_iff hu, hcount, or_assoc]

/-- Settles O24: with `FAULT` = 0 at the start, only a failed word of the run can have set it. -/
theorem faultTellsWhetherAnyCommandFailed : Obligations.FaultTellsWhetherAnyCommandFailed := by
  intro ws s t hs ht
  have hclear : s.fault = false := hs
  simp [runCommands_fault_iff ht, hclear]

end Sys2Proof.Machine
end
